-- ==== Sys2Proof/Config.lean ====
section
/-!
DEFINITION. The implementation parameters of `00_scope.md` R6. `IN_CAP` is OPEN in the spec (D7: any value at least
517), so it rests on a constant without a body (log 3).
-/

namespace Sys2Proof

/-- How far `IN_CAP` exceeds the least value R6 allows. No value of it can be proved (log 3). -/
opaque Config.inCapExtra : Nat

/-- `IN_CAP`, the capacity of the input buffer: any value `>= 517` (R6, D7). -/
def Config.inCap : Nat := Config.inCapExtra + 517

/-- `OUT_CAP = 2*IN_CAP - 1` (R6, D8). -/
def Config.outCap : Nat := 2 * Config.inCap - 1

/-- `DATA_MAX`, the largest data length (R6). -/
def Config.dataMax : Nat := 255

end Sys2Proof
end

