-- ==== Sys2Proof/Syntax.lean ====
section
/-!
DEFINITION. The five commands of `30_encoding.md` R71, one constructor per row of spec/opcode_table.json. A command word
has no operand fields (R70): the operands are the registers IN and PKT.
-/

namespace Sys2Proof

/-- The operations a command word selects (R71). -/
inductive Instr where
  /-- `CRC8`, word 0x00 (R103). -/
  | crc8
  /-- `STUFF`, word 0x01 (R121). -/
  | stuff
  /-- `DESTUFF`, word 0x02 (R123). -/
  | destuff
  /-- `ENCODE`, word 0x03 (R151). -/
  | encode
  /-- `DECODE`, word 0x04 (R153). -/
  | decode
deriving DecidableEq, Repr

end Sys2Proof
end

