-- ==== Sys2Proof/Word.lean ====
section
/-!
DEFINITION. The unit every value of the block is made of (`00_scope.md` R7, R8): an unsigned byte.
-/

namespace Sys2Proof

/-- A byte, 0 to 255 (R7); element of every byte sequence (R9). -/
abbrev Byte := BitVec 8

end Sys2Proof
end

