-- ==== Sys2Proof/Decode.lean ====
section
/-!
DEFINITION. The command word's decoder and encoder (`30_encoding.md` R70 to R73), total on all 256 words.
-/

namespace Sys2Proof

/-- Why a word is reserved (R72). -/
inductive DecodeReject where
  /-- `w[7:3] != 0`. -/
  | reservedBits
  /-- `w[7:3] = 0` and `OP` is 5, 6 or 7. -/
  | reservedOp
deriving DecidableEq, Repr

/-- `OP = w & 0x07` (R73). -/
def opField (w : Byte) : Byte := w &&& 0x07

/-- `RSV = w >> 3` (R73). -/
def rsvField (w : Byte) : Byte := w >>> 3

/-- The operation a command word selects (R71), or why the word is reserved (R72). -/
def decodeWord (w : Byte) : Except DecodeReject Instr :=
  if rsvField w = 0 then
    if opField w = 0 then .ok .crc8
    else if opField w = 1 then .ok .stuff
    else if opField w = 2 then .ok .destuff
    else if opField w = 3 then .ok .encode
    else if opField w = 4 then .ok .decode
    else .error .reservedOp
  else .error .reservedBits

/-- The command word of an operation (R71). -/
def encodeWord : Instr → Byte
  | .crc8 => 0x00
  | .stuff => 0x01
  | .destuff => 0x02
  | .encode => 0x03
  | .decode => 0x04

/-- The one byte of an instruction whose bits are `w`, every bit above `nbits` being 0. -/
def tableByte (nbits w : Nat) : Byte := BitVec.ofNat 8 (w % 2 ^ nbits)

/-- What `decodeWord` reads from an instruction whose bits are `w`. -/
def decodeTableWord (nbits w : Nat) : Option Instr :=
  match decodeWord (tableByte nbits w) with
  | .ok i => some i
  | .error _ => none

end Sys2Proof
end

