-- ==== Sys2Proof/Machine/Action.lean ====
section
/-!
DEFINITION. What the host can do to the block: the packet value (`10_state.md` R35), the host actions of
`20_memory.md` R57 and `30_encoding.md` R84, the refused ones of `60_exceptions.md` R206, and the lines of a host
program with the pseudo-instructions of R85. Plain data only.
-/

namespace Sys2Proof.Machine

/-- A packet (R35): optional address, command, optional data. -/
structure Packet where
  addr : Option Byte
  cmd  : Byte
  data : Option (List Byte)
deriving DecidableEq, Repr

/-- The result fields a host can read (R84); a host write of any of them is refused (R31). -/
inductive ResultField where
  | status
  | crcOut
  | outLen
  | resAddrP
  | resAddr
  | resCmd
  | resDataP
deriving DecidableEq, Repr

/-- One host action, one indivisible step (R57). -/
inductive Action where
  /-- `WRIN s`: write IN as a whole (R23). -/
  | wrin (bytes : List Byte)
  /-- `WRPKT(a, c, d)`: write the PKT group as a whole (R24). -/
  | wrpkt (p : Packet)
  /-- Write the word `w` to CMD (R25, R84). -/
  | cmdw (w : Byte)
  /-- `RD field` (R84). -/
  | rd (f : ResultField)
  /-- Read the byte `OUT_BUF[i]` (R55, R57). -/
  | rdOutByte (i : Nat)
  /-- `RDOUT`: read `OUT_BUF[0..OUT_LEN)` in order (R84; log 5). -/
  | rdOut
  /-- Read CMD: refused (R25, R206). -/
  | rdCmd
  /-- Write `v` to a result field: refused (R31, R206). -/
  | wrResult (f : ResultField) (v : Nat)
  /-- Write a byte of OUT_BUF: refused (R31, R206). -/
  | wrOutByte (i : Nat) (v : Byte)
  /-- `RESET` (R230). -/
  | reset
deriving DecidableEq, Repr

/-- One line of a host program: an action, a mnemonic line (R84) or a pseudo-instruction (R85). -/
inductive Line where
  | act (a : Action)
  /-- A mnemonic: write CMD with that operation's word (R84). -/
  | op (i : Instr)
  /-- `LOOP`: RDOUT giving `s`, then WRIN `s` (R85). -/
  | loop
  /-- `SEND p`: WRPKT `p`, then ENCODE (R85). -/
  | send (p : Packet)
  /-- `RECV s`: WRIN `s`, then DECODE (R85). -/
  | recv (bytes : List Byte)
deriving DecidableEq, Repr

/-- What a host read returned: the number a field or byte holds, or the byte sequence of RDOUT. -/
inductive ReadValue where
  | num (n : Nat)
  | bytes (s : List Byte)
deriving DecidableEq, Repr

end Sys2Proof.Machine
end

