-- ==== Sys2Proof/Machine/State.lean ====
section
/-!
DEFINITION. The state of the block and of the host that drives it (`10_state.md` R23 to R33), the reasons a step can
stop (`60_exceptions.md` R206), and the state at the start of a run (`70_reset_and_hazards.md` R230, R231).
-/

namespace Sys2Proof.Machine

/-- The model faults of R206. -/
inductive Fault where
  /-- `UNWRITTEN_OPERAND`: raised by a legal command that reads IN or PKT while it is unwritten. Safe: a run that meets
  it ends (R206, "toward unprovable"; log 2). -/
  | unwrittenOperand
deriving DecidableEq, Repr

/-- The refusals of R206, and the one of an instruction without a meaning. -/
inductive Refusal where
  /-- Raised by an arm of `exec` whose instruction has no meaning yet. Safe. No arm raises it now. -/
  | notModelled (mnemonic : String)
  /-- `OVER_CAP`: raised by WRIN longer than IN_CAP and by WRPKT with data longer than 255 bytes (R56). Safe. -/
  | overCap
  /-- `READ_PAST_LEN`: raised by a host read of OUT_BUF at or beyond OUT_LEN (R55). Safe. -/
  | readPastLen
  /-- `WRITE_RO`: raised by a host write of a result register (R31). Safe. -/
  | writeRo
  /-- `READ_WO`: raised by a host read of CMD (R25). Safe. -/
  | readWo
deriving DecidableEq, Repr

/-- The kinds of outcome that STATUS encodes (R83). -/
inductive Status where
  | ok
  | tooShort
  | noStart
  | destuff
  | wrongLen
  | wrongCrc
  | addrRange
  | cmdRange
  | empty
  | badOp
  | none
deriving DecidableEq, Repr

/-- The packet operand group PKT (R24). `PKT_DATA_LEN` is the length of `data` (log 7). -/
structure PktReg where
  addrP : Bool
  addr  : Byte
  cmd   : Byte
  dataP : Bool
  data  : List Byte
deriving DecidableEq, Repr

/-- What PKT holds at reset: absent address, command 0, absent data. The spec gives no value there, only that the group is
unwritten (R24); this value is the model's (DESIGN CHOICE, log 1). -/
def PktReg.zero : PktReg := { addrP := false, addr := 0, cmd := 0, dataP := false, data := [] }

/-- The decoded-packet group RES (R29). -/
structure ResReg where
  addrP : Bool
  addr  : BitVec 7
  cmd   : Byte
  dataP : Bool
deriving DecidableEq, Repr

/-- Every `RES` field 0 (R29, R73). -/
def ResReg.zero : ResReg := { addrP := false, addr := 0, cmd := 0, dataP := false }

/-- The three byte stores (R50). -/
inductive Store where
  | inBuf
  | pktData
  | outBuf
deriving DecidableEq, Repr

/-- Everything the spec gives the block, the model's marks, and the host's side of the interface. A byte sequence
register is a list of bytes: its length register is the list's length (log 7). -/
structure State where
  /-- IN: `IN_BUF[0..IN_LEN)` (R23). -/
  inReg      : List Byte
  /-- IN has been written since reset; `false` is the spec's "unwritten" (R23, R206). -/
  inWritten  : Bool
  /-- PKT (R24). -/
  pkt        : PktReg
  /-- PKT has been written since reset; `false` is the spec's "unwritten" (R24, R206). -/
  pktWritten : Bool
  /-- STATUS, 4 bits (R26). -/
  status     : BitVec 4
  /-- CRC_OUT (R27). -/
  crcOut     : Byte
  /-- OUT: `OUT_BUF[0..OUT_LEN)` (R28). -/
  out        : List Byte
  /-- RES (R29). -/
  res        : ResReg
  /-- FAULTED (R33; log 2). -/
  faulted    : Option Fault
  /-- REFUSED (R33; log 2). -/
  refused    : Option Refusal
  /-- The model's own: the host's program from here on, next line first (R22; log 4). -/
  pending    : List Line
  /-- The model's own: what the host's reads returned, oldest first (log 5). -/
  reads      : List ReadValue
deriving DecidableEq, Repr

/-- The state at the start of a run: the reset state of R230, no mark (R33), no host action waiting, nothing read. IN and PKT
are unwritten; the empty sequence and the zero group they hold meanwhile are the model's (log 1). -/
def State.reset : State where
  inReg := []
  inWritten := false
  pkt := PktReg.zero
  pktWritten := false
  status := 0xF
  crcOut := 0x00
  out := []
  res := ResReg.zero
  faulted := none
  refused := none
  pending := []
  reads := []

end Sys2Proof.Machine
end

