-- ==== Sys2Proof/Machine/Flags.lean ====
section
/-!
DEFINITION. The one flag register of the block, STATUS (`10_state.md` R34): the codes of `30_encoding.md` R83.
-/

namespace Sys2Proof.Machine

/-- The 4-bit code of each kind (R83). Codes 0xA to 0xE are reserved and belong to no kind. -/
def statusCode : Status → BitVec 4
  | .ok => 0x0
  | .tooShort => 0x1
  | .noStart => 0x2
  | .destuff => 0x3
  | .wrongLen => 0x4
  | .wrongCrc => 0x5
  | .addrRange => 0x6
  | .cmdRange => 0x7
  | .empty => 0x8
  | .badOp => 0x9
  | .none => 0xF

end Sys2Proof.Machine
end

