-- ==== Sys2Proof/Machine/Ops.lean ====
section
/-!
DEFINITION. The named operations over the registers and the byte stores. The block has no trap entry and no trap return
(`60_exceptions.md` R200, R208, R209): a failure is a status (`fail`), and the model's own stops are the two marks
(`State.markFault`, `State.markRefused`), each the ONE operation that sets its mark.
-/

namespace Sys2Proof.Machine

/-- `IN <- s`; IN counts as written from here on (R23). -/
def State.setIn (s : State) (bytes : List Byte) : State := { s with inReg := bytes, inWritten := true }

/-- Write the PKT group; it counts as written from here on (R24). -/
def State.setPkt (s : State) (p : PktReg) : State := { s with pkt := p, pktWritten := true }

/-- `STATUS <- k` (R26, R83). -/
def State.setStatus (s : State) (k : Status) : State := { s with status := statusCode k }

/-- `CRC_OUT <- c` (R27). -/
def State.setCrcOut (s : State) (c : Byte) : State := { s with crcOut := c }

/-- `OUT_LEN <- len(r); OUT_BUF[i] <- r[i]`, one atomic effect (R54). -/
def State.setOut (s : State) (r : List Byte) : State := { s with out := r }

/-- Write the RES group (R29). -/
def State.setRes (s : State) (r : ResReg) : State := { s with res := r }

/-- "clear results" (R73, R202). -/
def State.clearResults (s : State) : State := { s with crcOut := 0x00, out := [], res := ResReg.zero }

/-- `fault F`: set FAULTED and nothing else (R11, R202, R206; log 2). -/
def State.markFault (s : State) (f : Fault) : State := { s with faulted := some f }

/-- `refuse F`: set REFUSED and nothing else (R11, R206; log 2). -/
def State.markRefused (s : State) (r : Refusal) : State := { s with refused := some r }

/-- A host read returned `v` (R57; log 5). -/
def State.logRead (s : State) (v : ReadValue) : State := { s with reads := s.reads ++ [v] }

/-- The host's program from here on (R22; log 4). -/
def State.setPending (s : State) (ls : List Line) : State := { s with pending := ls }

/-- RESET: every register to its reset value, IN and PKT unwritten, the marks kept (R230); the host's side, the model's own
fields, untouched (log 4, log 5). -/
def State.resetRegisters (s : State) : State :=
  { s with
    inReg := []
    inWritten := false
    pkt := PktReg.zero
    pktWritten := false
    status := statusCode .none
    crcOut := 0x00
    out := []
    res := ResReg.zero }

/-- The byte sequence a store holds (R50). -/
def State.storeBytes (s : State) : Store → List Byte
  | .inBuf => s.inReg
  | .pktData => s.pkt.data
  | .outBuf => s.out

/-- `MemRead(BUF, i, 1)`: no value at or beyond the stored length (R28, R51, R53). -/
def State.memRead (s : State) (b : Store) (i : Nat) : Option Byte := (s.storeBytes b)[i]?

/-- A failed command writes only its status over the cleared results (R202). -/
def State.fail (s : State) (k : Status) : State := s.setStatus k

/-- A command that answers a byte sequence writes OUT and OK, one that fails its status (R54, R202). -/
def State.finishBytes (s : State) : Except Status (List Byte) → State
  | .ok r => (s.setOut r).setStatus .ok
  | .error k => s.fail k

/-- A reserved command word: results cleared, STATUS = BAD_OP, no operand read (R72, R73). -/
def State.badOp (s : State) : State := s.clearResults.setStatus .badOp

end Sys2Proof.Machine
end

