-- ==== Sys2Proof/Machine/Operands.lean ====
section
/-!
DEFINITION. The two operand forms of the block, the registers IN and PKT (`10_state.md` R23, R24): a command that reads an
unwritten one faults the model before it clears the results (`30_encoding.md` R73, `60_exceptions.md` R205, R206).
-/

namespace Sys2Proof.Machine

/-- The packet the PKT group stands for: the address and the data only when marked present (R24, R151). -/
def pktPacket (p : PktReg) : Packet where
  addr := if p.addrP then some p.addr else none
  cmd := p.cmd
  data := if p.dataP then some p.data else none

/-- The PKT group a WRPKT writes: 0 and empty where the packet has no address and no data (R24). -/
def packetPkt (p : Packet) : PktReg where
  addrP := p.addr.isSome
  addr := p.addr.getD 0
  cmd := p.cmd
  dataP := p.data.isSome
  data := p.data.getD []

/-- The RES group a decoded packet is delivered in; the address is 7 bits wide (R29, R153). -/
def packetRes (p : Packet) : ResReg where
  addrP := p.addr.isSome
  addr := (p.addr.getD 0).setWidth 7
  cmd := p.cmd
  dataP := p.data.isSome

/-- A command on IN. The spec's own first line of R103, R121, R123 and R153, "if IN is unwritten: fault
UNWRITTEN_OPERAND", then clear the results and run `op` on the bytes (R73, R206). -/
def withIn (s : State) (op : List Byte → State → State) : Host.Outcome State Fault Refusal :=
  if s.inWritten then .next (op s.inReg s.clearResults) else .next (s.markFault .unwrittenOperand)

/-- A command on PKT. The spec's own first line of R151, "if PKT is unwritten: fault UNWRITTEN_OPERAND", then clear the
results and run `op` on the packet (R73, R206). -/
def withPkt (s : State) (op : Packet → State → State) : Host.Outcome State Fault Refusal :=
  if s.pktWritten then .next (op (pktPacket s.pkt) s.clearResults) else .next (s.markFault .unwrittenOperand)

end Sys2Proof.Machine
end

