-- ==== Sys2Proof/Machine/Protocol.lean ====
section
/-!
DEFINITION. The fixed protocol constants (`00_scope.md` R6, `30_encoding.md` R74, R75).
-/

namespace Sys2Proof.Machine

/-- `FEND`, the start marker (R74). -/
def fend : Byte := 0xC0

/-- `FESC`, the escape marker (R74). -/
def fesc : Byte := 0xDB

/-- `TFEND`, which stands for FEND after FESC (R74). -/
def tfend : Byte := 0xDC

/-- `TFESC`, which stands for FESC after FESC (R74). -/
def tfesc : Byte := 0xDD

/-- `CRC_INIT`, the accumulator before the first byte (R75). -/
def crcInit : Byte := 0xDE

/-- `ADDR_FLAG`, the address-present bit of the byte after the start marker (R6, R77). -/
def addrFlag : Byte := 0x80

end Sys2Proof.Machine
end

