-- ==== Sys2Proof/Machine/Crc.lean ====
section
/-!
DEFINITION. The CRC-8 engine (`40_crc.md` R100 to R102) and its command CRC8 (R103).
-/

namespace Sys2Proof.Machine

/-- `CRC_BIT(acc, b)`: one bit step on bit 0 of `b` (R100). -/
def crcBit (acc b : Byte) : Byte :=
  if (b ^^^ acc) &&& 1 = 1 then ((acc ^^^ 0x18) >>> 1) ||| 0x80 else (acc >>> 1) &&& ~~~0x80

/-- `n` bit steps, least-significant bit of `b` first (R101). -/
def crcBits : Nat → Byte → Byte → Byte
  | 0, acc, _ => acc
  | n + 1, acc, b => crcBits n (crcBit acc b) (b >>> 1)

/-- `CRC_BYTE(acc, x)`: eight bit steps (R101). -/
def crcByte (acc x : Byte) : Byte := crcBits 8 acc x

/-- `F_CRC8` from a given accumulator. -/
def crcFrom (acc : Byte) : List Byte → Byte
  | [] => acc
  | x :: rest => crcFrom (crcByte acc x) rest

/-- `F_CRC8(s)`, in increasing index order (R102). -/
def crc8 (bytes : List Byte) : Byte := crcFrom crcInit bytes

/-- CRC8 on its operand, over cleared results (R103). -/
def runCrc8 (bytes : List Byte) (s : State) : State := (s.setCrcOut (crc8 bytes)).setStatus .ok

/-- CRC8 (R103). -/
def execCrc8 (s : State) : Host.Outcome State Fault Refusal := withIn s runCrc8

end Sys2Proof.Machine
end

