-- ==== Sys2Proof/Machine/Stuffing.lean ====
section
/-!
DEFINITION. The byte-stuffer and the byte-destuffer (`41_stuffing.md` R120, R122) and their commands STUFF (R121) and
DESTUFF (R123).
-/

namespace Sys2Proof.Machine

/-- What a byte after the first is sent as (R81, R120). -/
def escapeByte (b : Byte) : List Byte :=
  if b = fesc then [fesc, tfesc] else if b = fend then [fesc, tfend] else [b]

/-- The stuffed form of the bytes after the first. -/
def escapeBytes : List Byte → List Byte
  | [] => []
  | b :: rest => escapeByte b ++ escapeBytes rest

/-- `F_STUFF(s)`: the first byte copied unconditionally; empty input fails with EMPTY (R120, D12). -/
def stuffBytes : List Byte → Except Status (List Byte)
  | [] => .error .empty
  | b :: rest => .ok (b :: escapeBytes rest)

/-- The byte an escape pair stands for, by its second byte (R122). -/
def unescapeByte (c : Byte) : Except Status Byte :=
  if c = tfesc then .ok fesc else if c = tfend then .ok fend else .error .destuff

/-- `F_DESTUFF(s)`, left to right; the leftmost bad FESC decides the error (R122, conflict C1). -/
def destuffBytes : List Byte → Except Status (List Byte)
  | [] => .ok []
  | [b] => if b = fesc then .error .wrongLen else .ok [b]
  | b :: c :: rest =>
    if b = fesc then
      match unescapeByte c with
      | .error k => .error k
      | .ok e => (destuffBytes rest).map (e :: ·)
    else (destuffBytes (c :: rest)).map (b :: ·)

/-- STUFF on its operand, over cleared results (R121). -/
def runStuff (bytes : List Byte) (s : State) : State := s.finishBytes (stuffBytes bytes)

/-- DESTUFF on its operand, over cleared results (R123). -/
def runDestuff (bytes : List Byte) (s : State) : State := s.finishBytes (destuffBytes bytes)

/-- STUFF (R121). -/
def execStuff (s : State) : Host.Outcome State Fault Refusal := withIn s runStuff

/-- DESTUFF (R123). -/
def execDestuff (s : State) : Host.Outcome State Fault Refusal := withIn s runDestuff

end Sys2Proof.Machine
end

