-- ==== Sys2Proof/Machine/Framer.lean ====
section
/-!
DEFINITION. The packet framer (`42_framer.md` R150, R152) and its commands ENCODE (R151) and DECODE (R153).
-/

namespace Sys2Proof.Machine

/-- Step 2 of encode: the address byte of a present address, or the range error (R77, R150). -/
def addrField : Option Byte → Except Status (List Byte)
  | none => .ok []
  | some a => if a > 0x7F then .error .addrRange else .ok [a ||| addrFlag]

/-- Step 3 of encode: the command byte, or the range error (R78, R150). -/
def cmdField (c : Byte) : Except Status (List Byte) := if c > 0x7F then .error .cmdRange else .ok [c]

/-- Step 4 of encode: the length byte and the data; absent data is sent as length 0 (R79, R150). -/
def dataField : Option (List Byte) → List Byte
  | none => [0x00]
  | some d => BitVec.ofNat 8 d.length :: d

/-- Steps 1 to 4 of encode: the destuffed frame without its CRC byte; the address check comes first (R150, R204). -/
def frameBody (p : Packet) : Except Status (List Byte) :=
  match addrField p.addr with
  | .error k => .error k
  | .ok a =>
    match cmdField p.cmd with
    | .error k => .error k
    | .ok c => .ok ([fend] ++ a ++ c ++ dataField p.data)

/-- `F_ENCODE(p)`: the frame with its CRC byte, stuffed (R150). -/
def encodePacket (p : Packet) : Except Status (List Byte) :=
  match frameBody p with
  | .error k => .error k
  | .ok buf => stuffBytes (buf ++ [crc8 buf])

/-- Step 4 of decode: the address when the byte after the start marker has bit 7 set, and the bytes from the command
on (R77, R152). -/
def splitAddr : List Byte → Option Byte × List Byte
  | [] => (none, [])
  | b :: rest => if b &&& addrFlag ≠ 0 then (some (b &&& 0x7F), rest) else (none, b :: rest)

/-- Steps 5 to 8 of decode: `tail` is the bytes after the length byte `n`, `f` the whole destuffed frame; the last byte
of both is the CRC byte (R152, R154). -/
def checkFrame (f : List Byte) (addr : Option Byte) (cmd n : Byte) (tail : List Byte) : Except Status Packet :=
  if tail.length < 1 then .error .wrongLen
  else if tail.length - 1 ≠ n.toNat then .error .wrongLen
  else if some (crc8 f.dropLast) ≠ f.getLast? then .error .wrongCrc
  else .ok { addr := addr, cmd := cmd, data := if n = 0 then none else some (tail.take n.toNat) }

/-- Steps 4 to 8 of decode, on what follows the start marker after destuffing (R152); a missing field is WRONG_LEN
(R154, D13), the command byte is taken as received (R155, D14). -/
def parseFrame (body : List Byte) : Except Status Packet :=
  match (splitAddr body).2 with
  | [] => .error .wrongLen
  | [_] => .error .wrongLen
  | cmd :: n :: tail => checkFrame (fend :: body) (splitAddr body).1 cmd n tail

/-- `F_DECODE(raw)`: length floor, start marker, destuff the remainder, then the fields (R152, R203). -/
def decodeFrame (raw : List Byte) : Except Status Packet :=
  if raw.length < 4 then .error .tooShort
  else if raw.head? ≠ some fend then .error .noStart
  else
    match destuffBytes raw.tail with
    | .error k => .error k
    | .ok body => parseFrame body

/-- ENCODE on its operand, over cleared results (R151). -/
def runEncode (p : Packet) (s : State) : State := s.finishBytes (encodePacket p)

/-- A successful DECODE delivers the packet in RES and OUT; a failed one only its status (R153). -/
def State.finishPacket (s : State) : Except Status Packet → State
  | .ok p => ((s.setRes (packetRes p)).setOut (p.data.getD [])).setStatus .ok
  | .error k => s.fail k

/-- DECODE on its operand, over cleared results (R153). -/
def runDecode (raw : List Byte) (s : State) : State := s.finishPacket (decodeFrame raw)

/-- ENCODE (R151). -/
def execEncode (s : State) : Host.Outcome State Fault Refusal := withPkt s runEncode

/-- DECODE (R153). -/
def execDecode (s : State) : Host.Outcome State Fault Refusal := withIn s runDecode

end Sys2Proof.Machine
end

