-- ==== Sys2Proof/Machine/Bus.lean ====
section
/-!
DEFINITION. The host's actions on the block (`20_memory.md` R55 to R57, `30_encoding.md` R73, R84, R85,
`60_exceptions.md` R206, `70_reset_and_hazards.md` R230) and which one a line of the host's program performs.
-/

namespace Sys2Proof.Machine

/-- `COMMAND(w)`: the whole block step on a host write `CMD <- w` (R73). -/
def command (w : Byte) (s : State) : Host.Outcome State Fault Refusal :=
  match decodeWord w with
  | .error _ => .next s.badOp
  | .ok i => exec i s

/-- `WRIN bytes`, refused when longer than IN_CAP (R23, R56). -/
def writeIn (bytes : List Byte) (s : State) : State :=
  if bytes.length ≤ Config.inCap then s.setIn bytes else s.markRefused .overCap

/-- `WRPKT p`, refused when its data is longer than 255 bytes (R24, R56). -/
def writePkt (p : Packet) (s : State) : State :=
  if (p.data.getD []).length ≤ Config.dataMax then s.setPkt (packetPkt p) else s.markRefused .overCap

/-- The number a result field holds (R26 to R29, R84). -/
def fieldValue (s : State) : ResultField → Nat
  | .status => s.status.toNat
  | .crcOut => s.crcOut.toNat
  | .outLen => s.out.length
  | .resAddrP => s.res.addrP.toNat
  | .resAddr => s.res.addr.toNat
  | .resCmd => s.res.cmd.toNat
  | .resDataP => s.res.dataP.toNat

/-- A host read of `OUT_BUF[i]`, refused at or beyond OUT_LEN (R55). -/
def readOutByte (i : Nat) (s : State) : State :=
  match s.memRead .outBuf i with
  | some b => s.logRead (.num b.toNat)
  | none => s.markRefused .readPastLen

/-- One host action (R57, R206). -/
def perform (a : Action) (s : State) : Host.Outcome State Fault Refusal :=
  match a with
  | .wrin bytes => .next (writeIn bytes s)
  | .wrpkt p => .next (writePkt p s)
  | .cmdw w => command w s
  | .rd f => .next (s.logRead (.num (fieldValue s f)))
  | .rdOutByte i => .next (readOutByte i s)
  | .rdOut => .next (s.logRead (.bytes s.out))
  | .rdCmd => .next (s.markRefused .readWo)
  | .wrResult _ _ => .next (s.markRefused .writeRo)
  | .wrOutByte _ _ => .next (s.markRefused .writeRo)
  | .reset => .next s.resetRegisters

/-- The action a line performs now, and the lines it leaves to come (R84, R85). LOOP feeds OUT, as it stands, back as the
next input. -/
def expandLine (s : State) : Line → Action × List Line
  | .act a => (a, [])
  | .op i => (.cmdw (encodeWord i), [])
  | .loop => (.rdOut, [.act (.wrin s.out)])
  | .send p => (.wrpkt p, [.op .encode])
  | .recv bytes => (.wrin bytes, [.op .decode])

/-- Perform the line `l`, the lines `rest` being left of the host's program. -/
def performLine (l : Line) (rest : List Line) (s : State) : Host.Outcome State Fault Refusal :=
  perform (expandLine s l).1 (s.setPending ((expandLine s l).2 ++ rest))

/-- The host's next action, if the program has one left; the block takes no step otherwise (R20; log 4). -/
def nextAction (s : State) : Host.Outcome State Fault Refusal :=
  match s.pending with
  | [] => .next s
  | l :: rest => performLine l rest s

/-- A state that carries a mark takes no further step (R206; log 2). -/
def guardMarks (s : State) (go : Host.Outcome State Fault Refusal) : Host.Outcome State Fault Refusal :=
  match s.faulted with
  | some f => .fault f
  | none =>
    match s.refused with
    | some r => .refused r
    | none => go

end Sys2Proof.Machine
end

