-- ==== Sys2Proof/Machine/Step.lean ====
section
/-!
DEFINITION. One step of the host and the block together: the next host action, in which a command is performed whole
(`10_state.md` R20, `20_memory.md` R57, R58).
-/

namespace Sys2Proof.Machine

/-- One host action, or none when the host's program is over; a marked state takes no step (R20, R206). -/
def step (s : State) : Host.Outcome State Fault Refusal := guardMarks s (nextAction s)

/-- `s` with the host about to write the word `w` to CMD (log 4). -/
def State.withFetchWord (s : State) (nbits w : Nat) : State :=
  s.setPending (.act (.cmdw (tableByte nbits w)) :: s.pending)

end Sys2Proof.Machine
end

