-- ==== Sys2Proof/Reference.lean ====
section
/-!
DEFINITION. The spec's pseudocode read by index, as it is printed: the loops of `40_crc.md` R102 and `41_stuffing.md` R120,
R122 and the straight lines of `42_framer.md` R150, R152. Statements compare the model's functions, which recurse on the
list, with these.
-/

namespace Sys2Proof.Reference

open Sys2Proof.Machine

/-- `s[i]`; used below only where `i < len(s)` (R9). -/
def at' (s : List Byte) (i : Nat) : Byte := s.getD i 0

/-- The loop of R102. -/
def crcLoop (s : List Byte) : Byte :=
  (List.range s.length).foldl (fun acc i => crcByte acc (at' s i)) 0xDE

/-- The loop of R120. -/
def stuffLoop (s : List Byte) : Except Status (List Byte) :=
  if s.length = 0 then .error .empty
  else
    .ok ((List.range' 1 (s.length - 1)).foldl
      (fun r i =>
        if at' s i = 0xDB then r ++ [0xDB, 0xDD]
        else if at' s i = 0xC0 then r ++ [0xDB, 0xDC]
        else r ++ [at' s i])
      [at' s 0])

/-- The `while` of R122 from index `i` with output `r`, for at most `fuel` rounds. -/
def destuffLoop (s : List Byte) : Nat → Nat → List Byte → Except Status (List Byte)
  | 0, _, r => .ok r
  | fuel + 1, i, r =>
    if i < s.length then
      if at' s i = 0xDB then
        if i + 1 ≥ s.length then .error .wrongLen
        else if at' s (i + 1) = 0xDD then destuffLoop s fuel (i + 2) (r ++ [0xDB])
        else if at' s (i + 1) = 0xDC then destuffLoop s fuel (i + 2) (r ++ [0xC0])
        else .error .destuff
      else destuffLoop s fuel (i + 1) (r ++ [at' s i])
    else .ok r

/-- The whole scan of R122: every round moves `i` on, so `len(s)` rounds reach the end. -/
def destuffScan (s : List Byte) : Except Status (List Byte) := destuffLoop s s.length 0 []

/-- Steps 3 to 6 of R150, `buf` being the output after step 2. -/
def encodeRest (buf : List Byte) (cmd : Byte) (data : Option (List Byte)) : Except Status (List Byte) :=
  if cmd > 0x7F then .error .cmdRange
  else
    let buf := buf ++ [cmd]
    let buf :=
      match data with
      | some d => buf ++ [BitVec.ofNat 8 d.length] ++ d
      | none => buf ++ [0x00]
    stuffLoop (buf ++ [crcLoop buf])

/-- The pseudocode of R150. -/
def encodeSteps (p : Packet) : Except Status (List Byte) :=
  match p.addr with
  | some a => if a > 0x7F then .error .addrRange else encodeRest ([0xC0] ++ [a ||| 0x80]) p.cmd p.data
  | none => encodeRest [0xC0] p.cmd p.data

/-- R152 from the command byte on, `i` being its index in the destuffed frame `f`. -/
def decodeRest (f : List Byte) (addr : Option Byte) (i : Nat) : Except Status Packet :=
  if i ≥ f.length then .error .wrongLen
  else if i + 1 ≥ f.length then .error .wrongLen
  else
    let n := (at' f (i + 1)).toNat
    if f.length < i + 2 + 1 then .error .wrongLen
    else if f.length - (i + 2) - 1 ≠ n then .error .wrongLen
    else if crcLoop (f.take (f.length - 1)) ≠ at' f (f.length - 1) then .error .wrongCrc
    else .ok { addr := addr, cmd := at' f i, data := if n = 0 then none else some ((f.drop (i + 2)).take n) }

/-- The pseudocode of R152. -/
def decodeSteps (raw : List Byte) : Except Status Packet :=
  if raw.length < 4 then .error .tooShort
  else if at' raw 0 ≠ 0xC0 then .error .noStart
  else
    match destuffScan (raw.drop 1) with
    | .error k => .error k
    | .ok body =>
      let f := [0xC0] ++ body
      if 1 ≥ f.length then .error .wrongLen
      else if at' f 1 &&& 0x80 ≠ 0 then decodeRest f (some (at' f 1 &&& 0x7F)) 2
      else decodeRest f none 1

end Sys2Proof.Reference
end

