-- ==== Sys2Proof/Safety.lean ====
section
/-!
DEFINITION. What counts as a run the spec's rules describe (`60_exceptions.md` R206: "no fault, no refusal"), the stores'
form, the invariant of the machine, and the packets ENCODE accepts.
-/

namespace Sys2Proof.Machine

/-- Neither mark is set: the premise every claim about a host program takes (R33, R206). -/
abbrev State.unmarked (s : State) : Prop := s.faulted = none ∧ s.refused = none

/-- Each byte store is within its capacity (R23, R24, R28, R50). The stores are lists indexed from 0 with no hole, so this
is all there is to their form (log 7). -/
abbrev Memory.wf (s : State) : Prop :=
  (s.storeBytes .inBuf).length ≤ Config.inCap ∧
  (s.storeBytes .pktData).length ≤ Config.dataMax ∧
  (s.storeBytes .outBuf).length ≤ Config.outCap

/-- The operand a command reads has been written since reset (R73). -/
def operandWritten (i : Instr) (s : State) : Bool :=
  match i with
  | .crc8 => s.inWritten
  | .stuff => s.inWritten
  | .destuff => s.inWritten
  | .encode => s.pktWritten
  | .decode => s.inWritten

/-- The packets of R159: address absent or at most 0x7F, command at most 0x7F, data at most 255 bytes. -/
def Packet.encodable (p : Packet) : Prop :=
  (∀ a, p.addr = some a → a ≤ 0x7F) ∧ p.cmd ≤ 0x7F ∧ (p.data.getD []).length ≤ 255

/-- `norm` of R159: data that is present and empty becomes absent, nothing else changes. -/
def Packet.norm (p : Packet) : Packet := if p.data = some [] then { p with data := none } else p

/-- What holds of the machine after every step: the stores' form, what an unwritten operand (log 1) and an absent operand
field (R24) hold, the codes STATUS can hold (R83), what the result registers can hold together (R27 to R29, R155, R202),
and one mark at most (R206). -/
structure State.Inv (s : State) : Prop where
  stores : Memory.wf s
  unwrittenIn : s.inWritten = false → s.inReg = []
  unwrittenPkt : s.pktWritten = false → s.pkt = PktReg.zero
  pktAbsentAddr : s.pkt.addrP = false → s.pkt.addr = 0
  pktAbsentData : s.pkt.dataP = false → s.pkt.data = []
  statusCodes : s.status ≤ 0x9 ∨ s.status = 0xF
  failedEmpty : s.status ≠ 0x0 → s.crcOut = 0x00 ∧ s.out = [] ∧ s.res = ResReg.zero
  crcAlone : s.crcOut ≠ 0x00 → s.out = [] ∧ s.res = ResReg.zero
  resAbsentAddr : s.res.addrP = false → s.res.addr = 0 ∧ s.res.cmd ≤ 0x7F
  resData : s.res.dataP = true → 1 ≤ s.out.length ∧ s.out.length ≤ 255
  resNoData : s.res ≠ ResReg.zero → s.res.dataP = false → s.out = []
  oneMark : s.faulted = none ∨ s.refused = none

end Sys2Proof.Machine
end

