-- ==== Sys2Proof/WellFormed.lean ====
section
/-!
DEFINITION. Which syntax the interface can express. A command word has no operand fields (`30_encoding.md` R70), so every
`Instr` is well-formed; an operand write is well-formed when it fits its register (`20_memory.md` R56).
-/

namespace Sys2Proof

/-- No instruction has a field that could be out of range (R70). -/
def Instr.wellFormed : Instr → Bool
  | .crc8 => true
  | .stuff => true
  | .destuff => true
  | .encode => true
  | .decode => true

/-- The data of a packet fits the 8-bit `PKT_DATA_LEN` (R24, R35). -/
def Machine.Packet.wellFormed (p : Machine.Packet) : Bool :=
  match p.data with
  | none => true
  | some d => decide (d.length ≤ Config.dataMax)

/-- An operand write fits its register (R56); the other actions carry nothing that could be too long. -/
def Machine.Action.wellFormed : Machine.Action → Bool
  | .wrin bytes => decide (bytes.length ≤ Config.inCap)
  | .wrpkt p => p.wellFormed
  | .cmdw _ => true
  | .rd _ => true
  | .rdOutByte _ => true
  | .rdOut => true
  | .rdCmd => true
  | .wrResult _ _ => true
  | .wrOutByte _ _ => true
  | .reset => true

end Sys2Proof
end

