-- ==== Sys2Proof/Certificates/Slice0/Obligations.lean ====
section
/-!
DEFINITION. The statements for the provers, each with the rule or section of spec/ it formalises. Where a statement rests on
a choice of the model, or on a fact the spec marks as derived, its docstring says so. Byte values are written as literals,
so that a statement does not lean on the model's names for them.
-/

open Sys2Proof Sys2Proof.Machine

/-! ### The command word -/

/-- R71: the five words and their operations. -/
def Obligations.OpcodeMapOfFiveWords : Prop :=
  decodeWord 0x00 = .ok .crc8 ∧ decodeWord 0x01 = .ok .stuff ∧ decodeWord 0x02 = .ok .destuff ∧
  decodeWord 0x03 = .ok .encode ∧ decodeWord 0x04 = .ok .decode

/-- `30_encoding.md` section 1 (R73's first sentence): a word selects an operation exactly when its bits 7..3 are 0 and
its bits 2..0 are at most 4. -/
def Obligations.WordLegalExactlyWhenReservedBitsZero : Prop :=
  ∀ w : Byte, (∃ i, decodeWord w = .ok i) ↔ (w >>> 3 = 0 ∧ w &&& 0x07 ≤ 4)

/-- Decode and encode agree on every operation and on every word. -/
def Obligations.DecodeEncodeAgree : Prop :=
  (∀ i : Instr, i.wellFormed = true → decodeWord (encodeWord i) = .ok i) ∧
  (∀ (w : Byte) (i : Instr), decodeWord w = .ok i → encodeWord i = w)

/-- R72: every word with a bit of 7..3 set, and every word with those bits 0 and OP in 5, 6, 7, performs no operation:
from every state, whatever the operands hold, the command ends with STATUS = BAD_OP and every other result register
cleared; nothing else changes. (The rule's count "248" is not stated: by its definition 251 words are reserved, log 6.) -/
def Obligations.ReservedWordGivesBadOp : Prop :=
  ∀ (w : Byte) (s : State), (w >>> 3 ≠ 0 ∨ w &&& 0x07 = 5 ∨ w &&& 0x07 = 6 ∨ w &&& 0x07 = 7) →
    command w s = .next { s with status := 0x9, crcOut := 0x00, out := [], res := ⟨false, 0, 0, false⟩ }

/-- R83: the code of each kind; no two kinds share one, and none is 0xA to 0xE. -/
def Obligations.StatusCodesOfKinds : Prop :=
  statusCode .ok = 0x0 ∧ statusCode .tooShort = 0x1 ∧ statusCode .noStart = 0x2 ∧ statusCode .destuff = 0x3 ∧
  statusCode .wrongLen = 0x4 ∧ statusCode .wrongCrc = 0x5 ∧ statusCode .addrRange = 0x6 ∧
  statusCode .cmdRange = 0x7 ∧ statusCode .empty = 0x8 ∧ statusCode .badOp = 0x9 ∧ statusCode .none = 0xF ∧
  (∀ k k' : Status, statusCode k = statusCode k' → k = k') ∧
  (∀ k : Status, ¬ (0xA ≤ statusCode k ∧ statusCode k ≤ 0xE))

/-! ### Reset -/

/-- `70_reset_and_hazards.md` section 1: RESET from any state sets every register to its reset value, IN and PKT being
unwritten, and keeps the marks. Three points are the model's choice, not the spec's: the empty sequence and the zero group
IN and PKT hold while unwritten (log 1), and that the host's program (log 4) and its record of reads (log 5) are left. -/
def Obligations.ResetActionSetsResetValues : Prop :=
  ∀ s : State, perform .reset s =
    .next { s with
      inReg := [], inWritten := false, pkt := ⟨false, 0, 0, false, []⟩, pktWritten := false
      status := 0xF, crcOut := 0x00, out := [], res := ⟨false, 0, 0, false⟩ }

/-- The state at the start of a run (`70_reset_and_hazards.md` section 1, `10_state.md` section 7): the reset values, no
mark, IN and PKT unwritten. What IN and PKT hold while unwritten is the model's choice (log 1). The last two clauses are the
model's own fields (log 4, log 5): no host action waits and nothing has been read. -/
def Obligations.StartStateHoldsResetValues : Prop :=
  State.reset.inWritten = false ∧ State.reset.pktWritten = false ∧ State.reset.inReg = [] ∧
  State.reset.pkt = ⟨false, 0, 0, false, []⟩ ∧ State.reset.status = 0xF ∧ State.reset.crcOut = 0x00 ∧
  State.reset.out = [] ∧ State.reset.res = ⟨false, 0, 0, false⟩ ∧ State.reset.faulted = none ∧
  State.reset.refused = none ∧ State.reset.pending = [] ∧ State.reset.reads = []

/-! ### The CRC-8 engine -/

/-- R100: the bit step looks at bit 0 of the accumulator and of the input alone, and computes the document's two
branches. -/
def Obligations.CrcBitFollowsRecurrence : Prop :=
  (∀ acc b : Byte, (b ^^^ acc) &&& 1 = 1 → crcBit acc b = ((acc ^^^ 0x18) >>> 1) ||| 0x80) ∧
  (∀ acc b : Byte, (b ^^^ acc) &&& 1 = 0 → crcBit acc b = (acc >>> 1) &&& 0x7F) ∧
  (∀ acc b b' : Byte, b.getLsbD 0 = b'.getLsbD 0 → crcBit acc b = crcBit acc b')

/-- R101: the byte step is eight bit steps on the byte and its seven right shifts, least-significant bit first. -/
def Obligations.CrcByteTakesEightBitsLsbFirst : Prop :=
  ∀ acc x : Byte, crcByte acc x =
    crcBit (crcBit (crcBit (crcBit (crcBit (crcBit (crcBit (crcBit acc x) (x >>> 1)) (x >>> 2)) (x >>> 3))
      (x >>> 4)) (x >>> 5)) (x >>> 6)) (x >>> 7)

/-- R102: the checksum of a sequence is the indexed loop from 0xDE, for every sequence; of the empty one it is 0xDE. -/
def Obligations.CrcOfSequenceIsIndexedLoop : Prop :=
  (∀ s : List Byte, crc8 s = Reference.crcLoop s) ∧ crc8 [] = 0xDE

/-- `40_crc.md` section 3, a fact the spec marks as derived: the taken branch is a shift and an exclusive or with 0x8C,
and a byte step depends on the exclusive or of accumulator and byte alone. -/
def Obligations.CrcByteDependsOnXorOfItsInputs : Prop :=
  (∀ acc : Byte, ((acc ^^^ 0x18) >>> 1) ||| (0x80 : Byte) = (acc >>> 1) ^^^ (0x8C : Byte)) ∧
  (∀ acc x : Byte, crcByte acc x = crcByte 0x00 (acc ^^^ x))

/-- `40_crc.md` section 3, a fact the spec marks as derived (the residue): appending a byte to a sequence gives checksum
0 exactly when the byte is the sequence's checksum. -/
def Obligations.CrcResidueZeroExactlyForTrueCrc : Prop :=
  ∀ (s : List Byte) (x : Byte), crc8 (s ++ [x]) = 0x00 ↔ x = crc8 s

/-! ### The stuffer and the destuffer -/

/-- R120: the stuffer is the document's indexed loop, for every input. -/
def Obligations.StufferIsIndexedLoop : Prop :=
  ∀ s : List Byte, stuffBytes s = Reference.stuffLoop s

/-- R122: the destuffer is the document's left-to-right scan, for every input. -/
def Obligations.DestufferIsIndexedScan : Prop :=
  ∀ s : List Byte, destuffBytes s = Reference.destuffScan s

/-- `60_exceptions.md` section 2 and `41_stuffing.md` section 2: after a prefix that destuffs, a FESC followed by another
byte than TFESC and TFEND is the DESTUFF error whatever follows it, and a FESC at the end is WRONG_LEN. -/
def Obligations.DestufferReportsLeftmostBadEscape : Prop :=
  ∀ (good r : List Byte), destuffBytes good = .ok r →
    (∀ (c : Byte) (rest : List Byte), c ≠ 0xDD → c ≠ 0xDC →
      destuffBytes (good ++ 0xDB :: c :: rest) = .error .destuff) ∧
    destuffBytes (good ++ [0xDB]) = .error .wrongLen

/-- `41_stuffing.md` section 3, a fact the spec marks as derived: STUFF then DESTUFF of its result gives the input back,
for every input that is not empty and does not begin with FESC; both commands answer OK. -/
def Obligations.StuffThenDestuffGivesInputBack : Prop :=
  ∀ (s : State) (b : Byte) (rest : List Byte), s.inWritten = true → s.inReg = b :: rest → b ≠ 0xDB →
    ∃ t u, exec .stuff s = .next t ∧ t.status = 0x0 ∧
      exec .destuff (t.setIn t.out) = .next u ∧ u.status = 0x0 ∧ u.out = b :: rest

/-- `41_stuffing.md` section 3, a fact the spec marks as derived: the stuffed length is the input's plus the number of
later bytes that are FEND or FESC, so at most twice the input's less one. -/
def Obligations.StuffedLengthCountsEscapes : Prop :=
  ∀ (b : Byte) (rest r : List Byte), stuffBytes (b :: rest) = .ok r →
    r.length = (b :: rest).length + rest.countP (fun x => x == 0xC0 || x == 0xDB) ∧
    r.length ≤ 2 * (b :: rest).length - 1

/-- `41_stuffing.md` section 3, a fact the spec marks as derived: bounds of the destuffed length. -/
def Obligations.DestuffedLengthBounds : Prop :=
  ∀ s r : List Byte, destuffBytes s = .ok r → r.length ≤ s.length ∧ s.length ≤ 2 * r.length

/-- `41_stuffing.md` section 3, a fact the spec marks as derived: after index 0 a stuffed sequence holds no FEND, and every
FESC there is followed by TFEND or TFESC. -/
def Obligations.StuffedShapeHasNoLaterFend : Prop :=
  ∀ s r : List Byte, stuffBytes s = .ok r → ∀ i : Nat, 1 ≤ i →
    r[i]? ≠ some 0xC0 ∧ (r[i]? = some 0xDB → r[i + 1]? = some 0xDC ∨ r[i + 1]? = some 0xDD)

/-! ### The framer -/

/-- R150: the encoder is the document's six steps in order, for every packet whose data is at most 255 bytes. -/
def Obligations.EncoderIsSixSteps : Prop :=
  ∀ p : Packet, (p.data.getD []).length ≤ 255 → encodePacket p = Reference.encodeSteps p

/-- R152: the decoder is the document's pipeline in order, read by index, for every received buffer. -/
def Obligations.DecoderIsIndexedPipeline : Prop :=
  ∀ raw : List Byte, decodeFrame raw = Reference.decodeSteps raw

/-- `42_framer.md` section 4 (a derived fact of the spec): the length of what ENCODE sends, 4 to 517 bytes. The escapes
are counted over the address, length, data and CRC bytes of the frame. -/
def Obligations.EncodedLengthIsFrameAndEscapes : Prop :=
  ∀ p : Packet, p.encodable → ∃ f r, frameBody p = .ok f ∧ encodePacket p = .ok r ∧
    f.length + 1 = 4 + (if p.addr.isSome then 1 else 0) + (p.data.getD []).length ∧
    r.length = f.length + 1 + (f ++ [crc8 f]).tail.countP (fun x => x == 0xC0 || x == 0xDB) ∧
    4 ≤ r.length ∧ r.length ≤ 517

/-- `42_framer.md` section 4, a fact the spec marks as derived: what DECODE accepts. With `k` 1 when the byte after the
start marker has bit 7 set and 0 otherwise, the length byte is at index `k + 1` of the destuffed remainder. -/
def Obligations.DecodeAcceptsExactlyValidFrames : Prop :=
  ∀ raw : List Byte, (∃ p, decodeFrame raw = .ok p) ↔
    4 ≤ raw.length ∧ ∃ rest body, raw = 0xC0 :: rest ∧ destuffBytes rest = .ok body ∧
      (let k := if (body.getD 0 0).getLsbD 7 then 1 else 0
       body.length = k + 3 + (body.getD (k + 1) 0).toNat) ∧
      crc8 (0xC0 :: body) = 0x00

/-- R203: DECODE's checks in the document's order, each clause naming the first check that fails. `k` is as in the
statement above; `body` is the destuffed remainder of the buffer. -/
def Obligations.DecodeReportsFirstFailedCheck : Prop :=
  ∀ raw : List Byte,
    (raw.length < 4 → decodeFrame raw = .error .tooShort) ∧
    (4 ≤ raw.length → raw.head? ≠ some 0xC0 → decodeFrame raw = .error .noStart) ∧
    (4 ≤ raw.length → raw.head? = some 0xC0 → ∀ e, destuffBytes raw.tail = .error e →
      decodeFrame raw = .error e) ∧
    (4 ≤ raw.length → raw.head? = some 0xC0 → ∀ body, destuffBytes raw.tail = .ok body →
      let k := if (body.getD 0 0).getLsbD 7 then 1 else 0
      (body.length ≠ k + 3 + (body.getD (k + 1) 0).toNat → decodeFrame raw = .error .wrongLen) ∧
      (body.length = k + 3 + (body.getD (k + 1) 0).toNat →
        crc8 (0xC0 :: body.dropLast) ≠ body.getLastD 0 → decodeFrame raw = .error .wrongCrc))

/-- `42_framer.md` section 4, the round trip, which the spec marks as derived: for every packet of R159's kind, ENCODE
answers OK, its result fits IN, and DECODE of it answers OK and delivers the packet, present and empty data becoming
absent. The states are any in which the packet has been written to PKT. -/
def Obligations.DecodeOfEncodeGivesPacketBack : Prop :=
  ∀ (s : State) (p : Packet), p.encodable → s.pktWritten = true → s.pkt = packetPkt p →
    ∃ t u, exec .encode s = .next t ∧ t.status = 0x0 ∧ t.out.length ≤ Config.inCap ∧
      exec .decode (t.setIn t.out) = .next u ∧ u.status = 0x0 ∧ u.res = packetRes p.norm ∧
      u.out = p.data.getD []

/-- `42_framer.md` section 4, which the spec marks as derived: one flipped bit in an unescaped CRC byte makes DECODE fail,
with WRONG_CRC unless the new byte is FESC, with WRONG_LEN then. -/
def Obligations.FlippedCrcBitMakesDecodeFail : Prop :=
  ∀ (s : State) (p : Packet) (f r : List Byte) (j : Nat), p.encodable → frameBody p = .ok f →
    encodePacket p = .ok r → crc8 f ≠ 0xC0 → crc8 f ≠ 0xDB → j < 8 →
    s.inWritten = true → s.inReg = (r.dropLast ++ [crc8 f ^^^ ((1 : Byte) <<< j)]) →
    r.getLast? = some (crc8 f) ∧
    exec .decode s = .next { s with
      status := if crc8 f ^^^ ((1 : Byte) <<< j) = 0xDB then 0x4 else 0x5
      crcOut := 0x00, out := [], res := ⟨false, 0, 0, false⟩ }

/-- R160: PKT with data present of length 0 and PKT with data absent, alike in the rest, give the same OUT and the same
status; when that is OK, DECODE of the result (it is the same for both) answers OK, with no data and OUT empty. -/
def Obligations.EmptyDataEncodesAsAbsent : Prop :=
  ∀ s t : State, s.pktWritten = true → t.pktWritten = true →
    t.pkt.addrP = s.pkt.addrP → t.pkt.addr = s.pkt.addr → t.pkt.cmd = s.pkt.cmd →
    s.pkt.dataP = true → s.pkt.data = [] → t.pkt.dataP = false →
    ∃ u v, exec .encode s = .next u ∧ exec .encode t = .next v ∧ u.out = v.out ∧ u.status = v.status ∧
      (u.status = 0x0 → ∃ w, exec .decode (u.setIn u.out) = .next w ∧
        w.status = 0x0 ∧ w.res.dataP = false ∧ w.out = [])

/-! ### The five commands: where each completes and what it leaves -/

/-- `40_crc.md` section 2: CRC8 on a written IN answers OK with the checksum; OUT empty, RES zero, all else unchanged. -/
def Obligations.Crc8CompletesWithChecksum : Prop :=
  ∀ s : State, s.inWritten = true →
    exec .crc8 s = .next { s with
      status := 0x0, crcOut := Reference.crcLoop s.inReg, out := [], res := ⟨false, 0, 0, false⟩ }

/-- `41_stuffing.md` section 1: STUFF on a written IN. Not empty: OK, with the first byte copied and each later one
escaped; empty: EMPTY and no output. All else cleared or unchanged. -/
def Obligations.StuffCompletesWithEscapedBytes : Prop :=
  (∀ (s : State) (b : Byte) (rest : List Byte), s.inWritten = true → s.inReg = b :: rest →
    exec .stuff s = .next { s with
      status := 0x0, crcOut := 0x00, res := ⟨false, 0, 0, false⟩
      out := b :: rest.flatMap (fun x =>
        if x = 0xDB then [0xDB, 0xDD] else if x = 0xC0 then [0xDB, 0xDC] else [x]) }) ∧
  (∀ s : State, s.inWritten = true → s.inReg = [] →
    exec .stuff s = .next { s with status := 0x8, crcOut := 0x00, out := [], res := ⟨false, 0, 0, false⟩ })

/-- `41_stuffing.md` section 2: DESTUFF on a written IN, by the outcome of the document's scan of it: OK with the output,
or the scan's error with none. All else cleared or unchanged. -/
def Obligations.DestuffCompletesWithScan : Prop :=
  ∀ s : State, s.inWritten = true →
    (∀ r, Reference.destuffScan s.inReg = .ok r →
      exec .destuff s = .next { s with status := 0x0, crcOut := 0x00, out := r, res := ⟨false, 0, 0, false⟩ }) ∧
    (∀ k, Reference.destuffScan s.inReg = .error k →
      exec .destuff s = .next { s with
        status := statusCode k, crcOut := 0x00, out := [], res := ⟨false, 0, 0, false⟩ } ∧
      (k = .destuff ∨ k = .wrongLen))

/-- `42_framer.md` section 1: ENCODE on a written PKT whose present address and command are at most 0x7F and whose data is
at most 255 bytes answers OK with the stuffed frame; all else cleared or unchanged. PKT_ADDR counts only when
PKT_ADDR_P is set, PKT_DATA only when PKT_DATA_P is set. -/
def Obligations.EncodeCompletesWithFrame : Prop :=
  ∀ (s : State) (q : PktReg), s.pktWritten = true → s.pkt = q →
    (q.addrP = true → q.addr ≤ 0x7F) → q.cmd ≤ 0x7F → (q.dataP = true → q.data.length ≤ 255) →
    ∃ r, Reference.stuffLoop
        (let f := [0xC0] ++ (if q.addrP then [q.addr ||| 0x80] else []) ++ [q.cmd] ++
          (if q.dataP then BitVec.ofNat 8 q.data.length :: q.data else [0x00])
         f ++ [Reference.crcLoop f]) = .ok r ∧
      exec .encode s = .next { s with status := 0x0, crcOut := 0x00, out := r, res := ⟨false, 0, 0, false⟩ }

/-- `42_framer.md` section 1 and `60_exceptions.md` section 2: ENCODE's range errors, the address first. A failed ENCODE
leaves no output. -/
def Obligations.EncodeRangeErrorsAddressFirst : Prop :=
  ∀ (s : State) (q : PktReg), s.pktWritten = true → s.pkt = q →
    (q.addrP = true → q.addr > 0x7F →
      exec .encode s = .next { s with status := 0x6, crcOut := 0x00, out := [], res := ⟨false, 0, 0, false⟩ }) ∧
    (¬ (q.addrP = true ∧ q.addr > 0x7F) → q.cmd > 0x7F →
      exec .encode s = .next { s with status := 0x7, crcOut := 0x00, out := [], res := ⟨false, 0, 0, false⟩ })

/-- `42_framer.md` section 2: DECODE of a frame with an address byte `a` (bit 7 set) and a true CRC answers OK: the
address is its low 7 bits, the command byte as received, the data in OUT, present exactly when its length is not 0. -/
def Obligations.DecodeCompletesWithAddress : Prop :=
  ∀ (s : State) (rest : List Byte) (a c : Byte) (d : List Byte), s.inWritten = true → s.inReg = 0xC0 :: rest →
    3 ≤ rest.length →
    a.getLsbD 7 = true → d.length ≤ 255 →
    destuffBytes rest = .ok (a :: c :: BitVec.ofNat 8 d.length :: d ++
      [crc8 (0xC0 :: a :: c :: BitVec.ofNat 8 d.length :: d)]) →
    exec .decode s = .next { s with
      status := 0x0, crcOut := 0x00, out := d, res := ⟨true, a.setWidth 7, c, decide (d ≠ [])⟩ }

/-- `42_framer.md` section 2: DECODE of a frame without an address byte (the byte after the start marker is the command
`c`, bit 7 clear) and with a true CRC answers OK. -/
def Obligations.DecodeCompletesWithoutAddress : Prop :=
  ∀ (s : State) (rest : List Byte) (c : Byte) (d : List Byte), s.inWritten = true → s.inReg = 0xC0 :: rest →
    3 ≤ rest.length →
    c.getLsbD 7 = false → d.length ≤ 255 →
    destuffBytes rest = .ok (c :: BitVec.ofNat 8 d.length :: d ++
      [crc8 (0xC0 :: c :: BitVec.ofNat 8 d.length :: d)]) →
    exec .decode s = .next { s with
      status := 0x0, crcOut := 0x00, out := d, res := ⟨false, 0, c, decide (d ≠ [])⟩ }

/-- `42_framer.md` section 2 and `60_exceptions.md` section 1: a DECODE whose pipeline fails writes its status, with
every other result cleared; all else unchanged. -/
def Obligations.FailedDecodeWritesOnlyStatus : Prop :=
  ∀ (s : State) (k : Status), s.inWritten = true → Reference.decodeSteps s.inReg = .error k →
    exec .decode s = .next { s with
      status := statusCode k, crcOut := 0x00, out := [], res := ⟨false, 0, 0, false⟩ } ∧
    (k = .tooShort ∨ k = .noStart ∨ k = .destuff ∨ k = .wrongLen ∨ k = .wrongCrc)

/-- `60_exceptions.md` section 3 (and `30_encoding.md` section 1, "if operand is unwritten: fault UNWRITTEN_OPERAND"): a
command whose operand is unwritten, whatever the register holds, sets the fault mark and changes nothing else, the results
of the command before it included. That the step which sets the mark answers a next state is the model's choice
(log 2). -/
def Obligations.UnwrittenOperandSetsFaultMarkOnly : Prop :=
  ∀ (i : Instr) (s : State), operandWritten i s = false →
    exec i s = .next { s with faulted := some .unwrittenOperand }

/-- The frame of the five commands (`10_state.md` sections 6 and 7): a command changes no operand register, no byte of
IN_BUF or PKT_DATA, no refusal mark, nothing of the host's side, and the fault mark only when its operand is
unwritten. -/
def Obligations.CommandsLeaveOperandsUnchanged : Prop :=
  ∀ (i : Instr) (s t : State), exec i s = .next t →
    t.inReg = s.inReg ∧ t.inWritten = s.inWritten ∧ t.pkt = s.pkt ∧ t.pktWritten = s.pktWritten ∧
    t.refused = s.refused ∧ t.pending = s.pending ∧ t.reads = s.reads ∧
    (operandWritten i s = true → t.faulted = s.faulted) ∧
    (∀ a, t.memRead .inBuf a = s.memRead .inBuf a) ∧ (∀ a, t.memRead .pktData a = s.memRead .pktData a)

/-- Which results each command can leave (`60_exceptions.md` section 1): only its own, and none when it fails; every byte
of OUT_BUF is gone after CRC8 and after a failure. -/
def Obligations.CommandsLeaveOnlyTheirOwnResults : Prop :=
  ∀ (i : Instr) (s t : State), operandWritten i s = true → exec i s = .next t →
    (i ≠ .crc8 → t.crcOut = 0x00) ∧
    (i ≠ .decode → t.res = ⟨false, 0, 0, false⟩) ∧
    (i = .crc8 → ∀ a, t.memRead .outBuf a = none) ∧
    (t.status ≠ 0x0 → t.crcOut = 0x00 ∧ t.res = ⟨false, 0, 0, false⟩ ∧ ∀ a, t.memRead .outBuf a = none)

/-- Which statuses each command can answer once its operand is written (`60_exceptions.md` section 1): CRC8 always OK;
STUFF OK or EMPTY; DESTUFF OK, DESTUFF or WRONG_LEN; ENCODE OK, ADDR_RANGE or CMD_RANGE; DECODE OK or codes 1 to 5. -/
def Obligations.StatusCausesPerCommand : Prop :=
  ∀ (s t : State),
    (s.inWritten = true → exec .crc8 s = .next t → t.status = 0x0) ∧
    (s.inWritten = true → exec .stuff s = .next t → t.status = 0x0 ∨ (t.status = 0x8 ∧ s.inReg = [])) ∧
    (s.inWritten = true → exec .destuff s = .next t → t.status = 0x0 ∨ t.status = 0x3 ∨ t.status = 0x4) ∧
    (s.pktWritten = true → exec .encode s = .next t → t.status = 0x0 ∨ t.status = 0x6 ∨ t.status = 0x7) ∧
    (s.inWritten = true → exec .decode s = .next t → t.status ≤ 0x5)

/-- `10_state.md` section 7, which the spec marks as derived: what a command writes is a function of the command and its
operand alone: two states that agree on IN and PKT, the operand being written in both, get the same results, whatever else
they hold. -/
def Obligations.ResultsDependOnOperandsAlone : Prop :=
  ∀ (i : Instr) (s t u v : State), t.inReg = s.inReg → t.pkt = s.pkt →
    operandWritten i s = true → operandWritten i t = true → exec i s = .next u → exec i t = .next v →
    v.status = u.status ∧ v.crcOut = u.crcOut ∧ v.out = u.out ∧ v.res = u.res

/-- `10_state.md` section 6, which the spec marks as derived: the same command issued twice, with no operand write between,
leaves the state the first issue left. -/
def Obligations.RepeatedCommandChangesNothing : Prop :=
  ∀ (i : Instr) (s t : State), exec i s = .next t → exec i t = .next t

/-! ### The host's actions -/

/-- `10_state.md` section 3: WRIN of a sequence that fits sets IN, byte for byte, which then counts as written, and changes
nothing else. -/
def Obligations.WrinSetsInOnly : Prop :=
  ∀ (s : State) (bytes : List Byte), bytes.length ≤ Config.inCap →
    ∃ t, perform (.wrin bytes) s = .next t ∧ t = { s with inReg := bytes, inWritten := true } ∧
      ∀ i, t.memRead .inBuf i = bytes[i]?

/-- `10_state.md` section 3: WRPKT of a packet whose data is at most 255 bytes writes the whole group: presence bits, the
value or 0, the command, the data or nothing; it then counts as written; nothing else changes. -/
def Obligations.WrpktSetsPktOnly : Prop :=
  ∀ (s : State) (a : Option Byte) (c : Byte) (d : Option (List Byte)), (d.getD []).length ≤ 255 →
    perform (.wrpkt ⟨a, c, d⟩) s = .next { s with pktWritten := true, pkt := {
      addrP := decide (a ≠ none)
      addr := match a with | some x => x | none => 0
      cmd := c
      dataP := decide (d ≠ none)
      data := match d with | some x => x | none => [] } }

/-- `20_memory.md` section 1 and `60_exceptions.md` section 3: a write that does not fit its register is refused and
changes nothing but the mark; it is refused exactly when it does not fit. The mark's form is the model's (log 2). -/
def Obligations.OverlongWritesAreRefused : Prop :=
  (∀ (s : State) (bytes : List Byte), Config.inCap < bytes.length →
    perform (.wrin bytes) s = .next { s with refused := some .overCap }) ∧
  (∀ (s : State) (p : Packet), 255 < (p.data.getD []).length →
    perform (.wrpkt p) s = .next { s with refused := some .overCap }) ∧
  (∀ (s t : State) (a : Action), s.refused = none → (∃ bytes, a = .wrin bytes) ∨ (∃ p, a = .wrpkt p) →
    perform a s = .next t → (t.refused = none ↔ a.wellFormed = true))

/-- `20_memory.md` section 1 and `30_encoding.md` section 5: a read returns what its field or byte holds and changes no
register; what it returned stands last in the model's record of reads (log 5). A byte read is of an index below OUT_LEN. -/
def Obligations.ReadsReturnFieldsAndChangeNothing : Prop :=
  ∀ s : State,
    perform (.rd .status) s = .next { s with reads := s.reads ++ [.num s.status.toNat] } ∧
    perform (.rd .crcOut) s = .next { s with reads := s.reads ++ [.num s.crcOut.toNat] } ∧
    perform (.rd .outLen) s = .next { s with reads := s.reads ++ [.num s.out.length] } ∧
    perform (.rd .resAddrP) s = .next { s with reads := s.reads ++ [.num (if s.res.addrP then 1 else 0)] } ∧
    perform (.rd .resAddr) s = .next { s with reads := s.reads ++ [.num s.res.addr.toNat] } ∧
    perform (.rd .resCmd) s = .next { s with reads := s.reads ++ [.num s.res.cmd.toNat] } ∧
    perform (.rd .resDataP) s = .next { s with reads := s.reads ++ [.num (if s.res.dataP then 1 else 0)] } ∧
    perform .rdOut s = .next { s with reads := s.reads ++ [.bytes s.out] } ∧
    (∀ (i : Nat) (b : Byte), s.out[i]? = some b →
      perform (.rdOutByte i) s = .next { s with reads := s.reads ++ [.num b.toNat] })

/-- `20_memory.md` section 1 and `60_exceptions.md` section 3: a read at or beyond OUT_LEN, a write of a result register
and a read of CMD are refused, each under its own name, and change nothing but the mark (its form: log 2). -/
def Obligations.ForbiddenAccessesAreRefused : Prop :=
  ∀ s : State,
    (∀ i, s.out.length ≤ i → perform (.rdOutByte i) s = .next { s with refused := some .readPastLen }) ∧
    (∀ f v, perform (.wrResult f v) s = .next { s with refused := some .writeRo }) ∧
    (∀ i v, perform (.wrOutByte i v) s = .next { s with refused := some .writeRo }) ∧
    perform .rdCmd s = .next { s with refused := some .readWo }

/-- `30_encoding.md` sections 1 and 5 (the sizes there are derived facts of the spec): after a successful ENCODE the
result always fits IN, so the write of LOOP is not refused. -/
def Obligations.EncodeResultAlwaysFitsInput : Prop :=
  ∀ s t : State, s.Inv → s.pktWritten = true → exec .encode s = .next t → t.status = 0x0 →
    perform (.wrin t.out) t = .next { t with inReg := t.out, inWritten := true }

/-! ### Steps -/

/-- A step whose next line is a write of CMD with a word that decodes to `i` is `exec i` on the state with that line taken
off the host's program (`10_state.md` section 1; the program in the state is the model's choice, log 4). -/
def Obligations.StepRunsDecodedInstruction : Prop :=
  ∀ (s : State) (w : Byte) (i : Instr) (rest : List Line), s.faulted = none → s.refused = none →
    s.pending = .act (.cmdw w) :: rest → decodeWord w = .ok i → i.wellFormed = true →
    step s = exec i { s with pending := rest }

/-- A step at a line that is one host action performs that action, whichever it is: WRIN, WRPKT, a write of CMD (with a
reserved word too), RD, a byte read, RDOUT, RESET or a refused access. A mnemonic line issues its operation; SEND, RECV and
LOOP perform their first action and leave their second to come (`20_memory.md` section 1, `30_encoding.md` section 5; the
program in the state and the record of reads are the model's choice, log 4, log 5). -/
def Obligations.LinesExpandAsWritten : Prop :=
  ∀ (s : State) (rest : List Line), s.faulted = none → s.refused = none →
    (∀ a, s.pending = .act a :: rest → step s = perform a { s with pending := rest }) ∧
    (∀ w, s.pending = .act (.cmdw w) :: rest → step s = command w { s with pending := rest }) ∧
    (∀ i, s.pending = .op i :: rest → step s = exec i { s with pending := rest }) ∧
    (∀ p, s.pending = .send p :: rest → step s = perform (.wrpkt p) { s with pending := .op .encode :: rest }) ∧
    (∀ b, s.pending = .recv b :: rest → step s = perform (.wrin b) { s with pending := .op .decode :: rest }) ∧
    (s.pending = .loop :: rest →
      step s = .next { s with
        pending := .act (.wrin s.out) :: rest, reads := s.reads ++ [.bytes s.out] })

/-- `60_exceptions.md` section 3: a state that carries a mark takes no further step; the step's answer is the mark (the
form of that answer is the model's choice, log 2). -/
def Obligations.MarkedStateTakesNoStep : Prop :=
  (∀ (s : State) (f : Fault), s.faulted = some f → step s = .fault f) ∧
  (∀ (s : State) (r : Refusal), s.faulted = none → s.refused = some r → step s = .refused r)

/-- An unmarked state always takes its step: every one of the 256 command words, every action and every pseudo-instruction
answers a next state, and with no line left the state stays. Both clauses rest on choices of the model: that a refused
action and a command on an unwritten operand answer a next state, the marked one, is log 2; the program in the state and
the step with no line left are log 4. -/
def Obligations.UnmarkedStateAlwaysSteps : Prop :=
  (∀ s : State, s.faulted = none → s.refused = none → ∃ t, step s = .next t) ∧
  (∀ s : State, s.faulted = none → s.refused = none → s.pending = [] → step s = .next s)

/-- The invariant holds at the start of a run; its clauses on an unwritten operand are about the values of log 1 (the
model's choice). -/
def Obligations.InvariantHoldsAtReset : Prop := State.reset.Inv

/-- Every step keeps the invariant, from every state that meets it: the stores stay within their capacities (OUT_CAP is
never exceeded), STATUS never holds a reserved code, a failed command leaves no result, the result registers only hold
what one command can leave together, a decoded command byte above 0x7F comes only with an address, an unwritten operand
holds the value of log 1 (the model's choice). -/
def Obligations.EveryStepKeepsInvariant : Prop :=
  ∀ s t : State, s.Inv → step s = .next t → t.Inv

/-- `10_state.md` section 6: no step but a command or RESET changes a result register: whatever line is next, a step that is
not one of these leaves STATUS, CRC_OUT, OUT and RES as they were (the lines are the model's choice, log 4). -/
def Obligations.OnlyCommandsAndResetWriteResults : Prop :=
  ∀ s t : State, step s = .next t →
    (∀ w rest, s.pending ≠ .act (.cmdw w) :: rest) → (∀ i rest, s.pending ≠ .op i :: rest) →
    (∀ rest, s.pending ≠ .act .reset :: rest) →
    t.status = s.status ∧ t.crcOut = s.crcOut ∧ t.out = s.out ∧ t.res = s.res
end

