-- ==== Sys2Proof/Laws/Codec.lean ====
section
/-!
SUPPORT. The small lemmas of the codec's functions (`40_crc.md`, `41_stuffing.md`, `42_framer.md`), so that later proofs need
not unfold them.
-/

namespace Sys2Proof.Machine

/-! ### CRC-8 -/

@[simp] theorem crcFrom_nil (acc : Byte) : crcFrom acc [] = acc := rfl

@[simp] theorem crcFrom_cons (acc x : Byte) (s : List Byte) :
    crcFrom acc (x :: s) = crcFrom (crcByte acc x) s := rfl

theorem crcFrom_append (acc : Byte) (s t : List Byte) :
    crcFrom acc (s ++ t) = crcFrom (crcFrom acc s) t := by
  induction s generalizing acc with
  | nil => rfl
  | cons x s ih => exact ih _

theorem crc8_append_byte (s : List Byte) (x : Byte) : crc8 (s ++ [x]) = crcByte (crc8 s) x := by
  simp [crc8, crcFrom_append]

/-! ### Stuffing -/

@[simp] theorem escapeByte_fesc : escapeByte fesc = [fesc, tfesc] := by decide

@[simp] theorem escapeByte_fend : escapeByte fend = [fesc, tfend] := by decide

theorem escapeByte_plain {b : Byte} (h : b ≠ fesc) (h' : b ≠ fend) : escapeByte b = [b] := by
  simp [escapeByte, h, h']

/-- A byte is sent as an escape pair or as itself. -/
theorem escapeByte_cases (b : Byte) :
    (b = fesc ∧ escapeByte b = [fesc, tfesc]) ∨ (b = fend ∧ escapeByte b = [fesc, tfend]) ∨
    (b ≠ fesc ∧ b ≠ fend ∧ escapeByte b = [b]) := by
  by_cases h : b = fesc
  · subst h; exact .inl ⟨rfl, escapeByte_fesc⟩
  · by_cases h' : b = fend
    · subst h'; exact .inr (.inl ⟨rfl, escapeByte_fend⟩)
    · exact .inr (.inr ⟨h, h', escapeByte_plain h h'⟩)

@[simp] theorem escapeBytes_nil : escapeBytes [] = [] := rfl

@[simp] theorem escapeBytes_cons (b : Byte) (s : List Byte) :
    escapeBytes (b :: s) = escapeByte b ++ escapeBytes s := rfl

theorem escapeBytes_append (s t : List Byte) :
    escapeBytes (s ++ t) = escapeBytes s ++ escapeBytes t := by
  induction s with
  | nil => rfl
  | cons b s ih => simp [ih]

@[simp] theorem stuffBytes_cons (b : Byte) (s : List Byte) :
    stuffBytes (b :: s) = .ok (b :: escapeBytes s) := rfl

/-! ### Destuffing -/

@[simp] theorem unescapeByte_tfesc : unescapeByte tfesc = .ok fesc := by rfl

@[simp] theorem unescapeByte_tfend : unescapeByte tfend = .ok fend := by rfl

theorem unescapeByte_other {c : Byte} (h : c ≠ tfesc) (h' : c ≠ tfend) :
    unescapeByte c = .error .destuff := by simp [unescapeByte, h, h']

@[simp] theorem destuffBytes_nil : destuffBytes [] = .ok [] := rfl

/-- A byte other than FESC is copied. -/
theorem destuffBytes_plain {b : Byte} (h : b ≠ fesc) (s : List Byte) :
    destuffBytes (b :: s) = (destuffBytes s).map (b :: ·) := by
  cases s with
  | nil => simp [destuffBytes, h, Except.map]
  | cons c s => simp [destuffBytes, h]

/-- A valid escape pair stands for one byte. -/
theorem destuffBytes_pair {c e : Byte} (h : unescapeByte c = .ok e) (s : List Byte) :
    destuffBytes (fesc :: c :: s) = (destuffBytes s).map (e :: ·) := by
  simp [destuffBytes, h]

/-- A bad escape pair stops the scan. -/
theorem destuffBytes_badPair {c : Byte} {k : Status} (h : unescapeByte c = .error k) (s : List Byte) :
    destuffBytes (fesc :: c :: s) = .error k := by
  simp [destuffBytes, h]

/-- The escape of one byte destuffs to that byte. -/
theorem destuffBytes_escapeByte (b : Byte) (s : List Byte) :
    destuffBytes (escapeByte b ++ s) = (destuffBytes s).map (b :: ·) := by
  obtain ⟨rfl, h⟩ | ⟨rfl, h⟩ | ⟨h1, _, h⟩ := escapeByte_cases b
  · rw [h]; exact destuffBytes_pair unescapeByte_tfesc s
  · rw [h]; exact destuffBytes_pair unescapeByte_tfend s
  · rw [h]; exact destuffBytes_plain h1 s

/-! ### Framing -/

@[simp] theorem addrField_none : addrField none = .ok [] := rfl

theorem addrField_some {a : Byte} (h : a ≤ 0x7F) : addrField (some a) = .ok [a ||| addrFlag] := by
  exact if_neg (BitVec.not_lt.mpr h)

theorem addrField_range {a : Byte} (h : a > 0x7F) : addrField (some a) = .error .addrRange := by
  exact if_pos h

theorem cmdField_ok {c : Byte} (h : c ≤ 0x7F) : cmdField c = .ok [c] := by
  exact if_neg (BitVec.not_lt.mpr h)

theorem cmdField_range {c : Byte} (h : c > 0x7F) : cmdField c = .error .cmdRange := by
  exact if_pos h

/-- The destuffed frame without its CRC byte always begins with the start marker. -/
theorem frameBody_head {p : Packet} {buf : List Byte} (h : frameBody p = .ok buf) :
    ∃ rest, buf = fend :: rest := by
  unfold frameBody at h
  cases ha : addrField p.addr with
  | error k => simp [ha] at h
  | ok a =>
    cases hc : cmdField p.cmd with
    | error k => simp [ha, hc] at h
    | ok c =>
      simp only [ha, hc, Except.ok.injEq] at h
      exact ⟨a ++ c ++ dataField p.data, by simp [← h]⟩

end Sys2Proof.Machine
end

