-- ==== Sys2Proof/Laws/State.lean ====
section
/-!
SUPPORT. One lemma per field per named update of the state: what the update leaves in the field.
-/

namespace Sys2Proof.Machine

variable (s : State)

@[simp] theorem State.setIn_inReg (bytes : List Byte) : (s.setIn bytes).inReg = bytes := rfl
@[simp] theorem State.setIn_inWritten (bytes : List Byte) : (s.setIn bytes).inWritten = true := rfl
@[simp] theorem State.setIn_pkt (bytes : List Byte) : (s.setIn bytes).pkt = s.pkt := rfl
@[simp] theorem State.setIn_pktWritten (bytes : List Byte) : (s.setIn bytes).pktWritten = s.pktWritten := rfl
@[simp] theorem State.setIn_status (bytes : List Byte) : (s.setIn bytes).status = s.status := rfl
@[simp] theorem State.setIn_crcOut (bytes : List Byte) : (s.setIn bytes).crcOut = s.crcOut := rfl
@[simp] theorem State.setIn_out (bytes : List Byte) : (s.setIn bytes).out = s.out := rfl
@[simp] theorem State.setIn_res (bytes : List Byte) : (s.setIn bytes).res = s.res := rfl
@[simp] theorem State.setIn_faulted (bytes : List Byte) : (s.setIn bytes).faulted = s.faulted := rfl
@[simp] theorem State.setIn_refused (bytes : List Byte) : (s.setIn bytes).refused = s.refused := rfl
@[simp] theorem State.setIn_pending (bytes : List Byte) : (s.setIn bytes).pending = s.pending := rfl
@[simp] theorem State.setIn_reads (bytes : List Byte) : (s.setIn bytes).reads = s.reads := rfl

@[simp] theorem State.setPkt_inReg (p : PktReg) : (s.setPkt p).inReg = s.inReg := rfl
@[simp] theorem State.setPkt_inWritten (p : PktReg) : (s.setPkt p).inWritten = s.inWritten := rfl
@[simp] theorem State.setPkt_pkt (p : PktReg) : (s.setPkt p).pkt = p := rfl
@[simp] theorem State.setPkt_pktWritten (p : PktReg) : (s.setPkt p).pktWritten = true := rfl
@[simp] theorem State.setPkt_status (p : PktReg) : (s.setPkt p).status = s.status := rfl
@[simp] theorem State.setPkt_crcOut (p : PktReg) : (s.setPkt p).crcOut = s.crcOut := rfl
@[simp] theorem State.setPkt_out (p : PktReg) : (s.setPkt p).out = s.out := rfl
@[simp] theorem State.setPkt_res (p : PktReg) : (s.setPkt p).res = s.res := rfl
@[simp] theorem State.setPkt_faulted (p : PktReg) : (s.setPkt p).faulted = s.faulted := rfl
@[simp] theorem State.setPkt_refused (p : PktReg) : (s.setPkt p).refused = s.refused := rfl
@[simp] theorem State.setPkt_pending (p : PktReg) : (s.setPkt p).pending = s.pending := rfl
@[simp] theorem State.setPkt_reads (p : PktReg) : (s.setPkt p).reads = s.reads := rfl

@[simp] theorem State.setStatus_inReg (k : Status) : (s.setStatus k).inReg = s.inReg := rfl
@[simp] theorem State.setStatus_inWritten (k : Status) : (s.setStatus k).inWritten = s.inWritten := rfl
@[simp] theorem State.setStatus_pkt (k : Status) : (s.setStatus k).pkt = s.pkt := rfl
@[simp] theorem State.setStatus_pktWritten (k : Status) : (s.setStatus k).pktWritten = s.pktWritten := rfl
@[simp] theorem State.setStatus_status (k : Status) : (s.setStatus k).status = statusCode k := rfl
@[simp] theorem State.setStatus_crcOut (k : Status) : (s.setStatus k).crcOut = s.crcOut := rfl
@[simp] theorem State.setStatus_out (k : Status) : (s.setStatus k).out = s.out := rfl
@[simp] theorem State.setStatus_res (k : Status) : (s.setStatus k).res = s.res := rfl
@[simp] theorem State.setStatus_faulted (k : Status) : (s.setStatus k).faulted = s.faulted := rfl
@[simp] theorem State.setStatus_refused (k : Status) : (s.setStatus k).refused = s.refused := rfl
@[simp] theorem State.setStatus_pending (k : Status) : (s.setStatus k).pending = s.pending := rfl
@[simp] theorem State.setStatus_reads (k : Status) : (s.setStatus k).reads = s.reads := rfl

@[simp] theorem State.setCrcOut_inReg (c : Byte) : (s.setCrcOut c).inReg = s.inReg := rfl
@[simp] theorem State.setCrcOut_inWritten (c : Byte) : (s.setCrcOut c).inWritten = s.inWritten := rfl
@[simp] theorem State.setCrcOut_pkt (c : Byte) : (s.setCrcOut c).pkt = s.pkt := rfl
@[simp] theorem State.setCrcOut_pktWritten (c : Byte) : (s.setCrcOut c).pktWritten = s.pktWritten := rfl
@[simp] theorem State.setCrcOut_status (c : Byte) : (s.setCrcOut c).status = s.status := rfl
@[simp] theorem State.setCrcOut_crcOut (c : Byte) : (s.setCrcOut c).crcOut = c := rfl
@[simp] theorem State.setCrcOut_out (c : Byte) : (s.setCrcOut c).out = s.out := rfl
@[simp] theorem State.setCrcOut_res (c : Byte) : (s.setCrcOut c).res = s.res := rfl
@[simp] theorem State.setCrcOut_faulted (c : Byte) : (s.setCrcOut c).faulted = s.faulted := rfl
@[simp] theorem State.setCrcOut_refused (c : Byte) : (s.setCrcOut c).refused = s.refused := rfl
@[simp] theorem State.setCrcOut_pending (c : Byte) : (s.setCrcOut c).pending = s.pending := rfl
@[simp] theorem State.setCrcOut_reads (c : Byte) : (s.setCrcOut c).reads = s.reads := rfl

@[simp] theorem State.setOut_inReg (r : List Byte) : (s.setOut r).inReg = s.inReg := rfl
@[simp] theorem State.setOut_inWritten (r : List Byte) : (s.setOut r).inWritten = s.inWritten := rfl
@[simp] theorem State.setOut_pkt (r : List Byte) : (s.setOut r).pkt = s.pkt := rfl
@[simp] theorem State.setOut_pktWritten (r : List Byte) : (s.setOut r).pktWritten = s.pktWritten := rfl
@[simp] theorem State.setOut_status (r : List Byte) : (s.setOut r).status = s.status := rfl
@[simp] theorem State.setOut_crcOut (r : List Byte) : (s.setOut r).crcOut = s.crcOut := rfl
@[simp] theorem State.setOut_out (r : List Byte) : (s.setOut r).out = r := rfl
@[simp] theorem State.setOut_res (r : List Byte) : (s.setOut r).res = s.res := rfl
@[simp] theorem State.setOut_faulted (r : List Byte) : (s.setOut r).faulted = s.faulted := rfl
@[simp] theorem State.setOut_refused (r : List Byte) : (s.setOut r).refused = s.refused := rfl
@[simp] theorem State.setOut_pending (r : List Byte) : (s.setOut r).pending = s.pending := rfl
@[simp] theorem State.setOut_reads (r : List Byte) : (s.setOut r).reads = s.reads := rfl

@[simp] theorem State.setRes_inReg (r : ResReg) : (s.setRes r).inReg = s.inReg := rfl
@[simp] theorem State.setRes_inWritten (r : ResReg) : (s.setRes r).inWritten = s.inWritten := rfl
@[simp] theorem State.setRes_pkt (r : ResReg) : (s.setRes r).pkt = s.pkt := rfl
@[simp] theorem State.setRes_pktWritten (r : ResReg) : (s.setRes r).pktWritten = s.pktWritten := rfl
@[simp] theorem State.setRes_status (r : ResReg) : (s.setRes r).status = s.status := rfl
@[simp] theorem State.setRes_crcOut (r : ResReg) : (s.setRes r).crcOut = s.crcOut := rfl
@[simp] theorem State.setRes_out (r : ResReg) : (s.setRes r).out = s.out := rfl
@[simp] theorem State.setRes_res (r : ResReg) : (s.setRes r).res = r := rfl
@[simp] theorem State.setRes_faulted (r : ResReg) : (s.setRes r).faulted = s.faulted := rfl
@[simp] theorem State.setRes_refused (r : ResReg) : (s.setRes r).refused = s.refused := rfl
@[simp] theorem State.setRes_pending (r : ResReg) : (s.setRes r).pending = s.pending := rfl
@[simp] theorem State.setRes_reads (r : ResReg) : (s.setRes r).reads = s.reads := rfl

@[simp] theorem State.clearResults_inReg : (s.clearResults).inReg = s.inReg := rfl
@[simp] theorem State.clearResults_inWritten : (s.clearResults).inWritten = s.inWritten := rfl
@[simp] theorem State.clearResults_pkt : (s.clearResults).pkt = s.pkt := rfl
@[simp] theorem State.clearResults_pktWritten : (s.clearResults).pktWritten = s.pktWritten := rfl
@[simp] theorem State.clearResults_status : (s.clearResults).status = s.status := rfl
@[simp] theorem State.clearResults_crcOut : (s.clearResults).crcOut = 0x00 := rfl
@[simp] theorem State.clearResults_out : (s.clearResults).out = [] := rfl
@[simp] theorem State.clearResults_res : (s.clearResults).res = ResReg.zero := rfl
@[simp] theorem State.clearResults_faulted : (s.clearResults).faulted = s.faulted := rfl
@[simp] theorem State.clearResults_refused : (s.clearResults).refused = s.refused := rfl
@[simp] theorem State.clearResults_pending : (s.clearResults).pending = s.pending := rfl
@[simp] theorem State.clearResults_reads : (s.clearResults).reads = s.reads := rfl

@[simp] theorem State.markFault_inReg (f : Fault) : (s.markFault f).inReg = s.inReg := rfl
@[simp] theorem State.markFault_inWritten (f : Fault) : (s.markFault f).inWritten = s.inWritten := rfl
@[simp] theorem State.markFault_pkt (f : Fault) : (s.markFault f).pkt = s.pkt := rfl
@[simp] theorem State.markFault_pktWritten (f : Fault) : (s.markFault f).pktWritten = s.pktWritten := rfl
@[simp] theorem State.markFault_status (f : Fault) : (s.markFault f).status = s.status := rfl
@[simp] theorem State.markFault_crcOut (f : Fault) : (s.markFault f).crcOut = s.crcOut := rfl
@[simp] theorem State.markFault_out (f : Fault) : (s.markFault f).out = s.out := rfl
@[simp] theorem State.markFault_res (f : Fault) : (s.markFault f).res = s.res := rfl
@[simp] theorem State.markFault_faulted (f : Fault) : (s.markFault f).faulted = some f := rfl
@[simp] theorem State.markFault_refused (f : Fault) : (s.markFault f).refused = s.refused := rfl
@[simp] theorem State.markFault_pending (f : Fault) : (s.markFault f).pending = s.pending := rfl
@[simp] theorem State.markFault_reads (f : Fault) : (s.markFault f).reads = s.reads := rfl

@[simp] theorem State.markRefused_inReg (r : Refusal) : (s.markRefused r).inReg = s.inReg := rfl
@[simp] theorem State.markRefused_inWritten (r : Refusal) : (s.markRefused r).inWritten = s.inWritten := rfl
@[simp] theorem State.markRefused_pkt (r : Refusal) : (s.markRefused r).pkt = s.pkt := rfl
@[simp] theorem State.markRefused_pktWritten (r : Refusal) : (s.markRefused r).pktWritten = s.pktWritten := rfl
@[simp] theorem State.markRefused_status (r : Refusal) : (s.markRefused r).status = s.status := rfl
@[simp] theorem State.markRefused_crcOut (r : Refusal) : (s.markRefused r).crcOut = s.crcOut := rfl
@[simp] theorem State.markRefused_out (r : Refusal) : (s.markRefused r).out = s.out := rfl
@[simp] theorem State.markRefused_res (r : Refusal) : (s.markRefused r).res = s.res := rfl
@[simp] theorem State.markRefused_faulted (r : Refusal) : (s.markRefused r).faulted = s.faulted := rfl
@[simp] theorem State.markRefused_refused (r : Refusal) : (s.markRefused r).refused = some r := rfl
@[simp] theorem State.markRefused_pending (r : Refusal) : (s.markRefused r).pending = s.pending := rfl
@[simp] theorem State.markRefused_reads (r : Refusal) : (s.markRefused r).reads = s.reads := rfl

@[simp] theorem State.logRead_inReg (v : ReadValue) : (s.logRead v).inReg = s.inReg := rfl
@[simp] theorem State.logRead_inWritten (v : ReadValue) : (s.logRead v).inWritten = s.inWritten := rfl
@[simp] theorem State.logRead_pkt (v : ReadValue) : (s.logRead v).pkt = s.pkt := rfl
@[simp] theorem State.logRead_pktWritten (v : ReadValue) : (s.logRead v).pktWritten = s.pktWritten := rfl
@[simp] theorem State.logRead_status (v : ReadValue) : (s.logRead v).status = s.status := rfl
@[simp] theorem State.logRead_crcOut (v : ReadValue) : (s.logRead v).crcOut = s.crcOut := rfl
@[simp] theorem State.logRead_out (v : ReadValue) : (s.logRead v).out = s.out := rfl
@[simp] theorem State.logRead_res (v : ReadValue) : (s.logRead v).res = s.res := rfl
@[simp] theorem State.logRead_faulted (v : ReadValue) : (s.logRead v).faulted = s.faulted := rfl
@[simp] theorem State.logRead_refused (v : ReadValue) : (s.logRead v).refused = s.refused := rfl
@[simp] theorem State.logRead_pending (v : ReadValue) : (s.logRead v).pending = s.pending := rfl
@[simp] theorem State.logRead_reads (v : ReadValue) : (s.logRead v).reads = s.reads ++ [v] := rfl

@[simp] theorem State.setPending_inReg (ls : List Line) : (s.setPending ls).inReg = s.inReg := rfl
@[simp] theorem State.setPending_inWritten (ls : List Line) : (s.setPending ls).inWritten = s.inWritten := rfl
@[simp] theorem State.setPending_pkt (ls : List Line) : (s.setPending ls).pkt = s.pkt := rfl
@[simp] theorem State.setPending_pktWritten (ls : List Line) : (s.setPending ls).pktWritten = s.pktWritten := rfl
@[simp] theorem State.setPending_status (ls : List Line) : (s.setPending ls).status = s.status := rfl
@[simp] theorem State.setPending_crcOut (ls : List Line) : (s.setPending ls).crcOut = s.crcOut := rfl
@[simp] theorem State.setPending_out (ls : List Line) : (s.setPending ls).out = s.out := rfl
@[simp] theorem State.setPending_res (ls : List Line) : (s.setPending ls).res = s.res := rfl
@[simp] theorem State.setPending_faulted (ls : List Line) : (s.setPending ls).faulted = s.faulted := rfl
@[simp] theorem State.setPending_refused (ls : List Line) : (s.setPending ls).refused = s.refused := rfl
@[simp] theorem State.setPending_pending (ls : List Line) : (s.setPending ls).pending = ls := rfl
@[simp] theorem State.setPending_reads (ls : List Line) : (s.setPending ls).reads = s.reads := rfl

@[simp] theorem State.resetRegisters_inReg : (s.resetRegisters).inReg = [] := rfl
@[simp] theorem State.resetRegisters_inWritten : (s.resetRegisters).inWritten = false := rfl
@[simp] theorem State.resetRegisters_pkt : (s.resetRegisters).pkt = PktReg.zero := rfl
@[simp] theorem State.resetRegisters_pktWritten : (s.resetRegisters).pktWritten = false := rfl
@[simp] theorem State.resetRegisters_status : (s.resetRegisters).status = statusCode .none := rfl
@[simp] theorem State.resetRegisters_crcOut : (s.resetRegisters).crcOut = 0x00 := rfl
@[simp] theorem State.resetRegisters_out : (s.resetRegisters).out = [] := rfl
@[simp] theorem State.resetRegisters_res : (s.resetRegisters).res = ResReg.zero := rfl
@[simp] theorem State.resetRegisters_faulted : (s.resetRegisters).faulted = s.faulted := rfl
@[simp] theorem State.resetRegisters_refused : (s.resetRegisters).refused = s.refused := rfl
@[simp] theorem State.resetRegisters_pending : (s.resetRegisters).pending = s.pending := rfl
@[simp] theorem State.resetRegisters_reads : (s.resetRegisters).reads = s.reads := rfl

@[simp] theorem ResReg.zero_addrP : ResReg.zero.addrP = false := rfl
@[simp] theorem ResReg.zero_addr : ResReg.zero.addr = 0 := rfl
@[simp] theorem ResReg.zero_cmd : ResReg.zero.cmd = 0 := rfl
@[simp] theorem ResReg.zero_dataP : ResReg.zero.dataP = false := rfl

@[simp] theorem PktReg.zero_addrP : PktReg.zero.addrP = false := rfl
@[simp] theorem PktReg.zero_addr : PktReg.zero.addr = 0 := rfl
@[simp] theorem PktReg.zero_cmd : PktReg.zero.cmd = 0 := rfl
@[simp] theorem PktReg.zero_dataP : PktReg.zero.dataP = false := rfl
@[simp] theorem PktReg.zero_data : PktReg.zero.data = [] := rfl

/-- `fail` writes STATUS alone. -/
@[simp] theorem State.fail_eq (k : Status) : s.fail k = s.setStatus k := rfl

/-- A reserved word's effect is the clearing and one status. -/
@[simp] theorem State.badOp_eq : s.badOp = s.clearResults.setStatus .badOp := rfl

end Sys2Proof.Machine
end

