-- ==== Sys2Proof/Laws/Ops.lean ====
section
/-!
SUPPORT. What each shared operation can do, said once: the byte stores, the two operand forms, the two ways a command
finishes, and the stores' form under every memory operation.
-/

namespace Sys2Proof.Machine

variable {s t : State}

/-! ### Capacities -/

theorem le_inCap {n : Nat} (h : n ≤ 517) : n ≤ Config.inCap := by unfold Config.inCap; omega

theorem inCap_le_outCap : Config.inCap ≤ Config.outCap := by
  unfold Config.outCap Config.inCap; omega

theorem le_outCap {n : Nat} (h : n ≤ 517) : n ≤ Config.outCap := (le_inCap h).trans inCap_le_outCap

/-! ### The byte stores -/

theorem storeBytes_congr (hi : t.inReg = s.inReg) (hp : t.pkt = s.pkt) (ho : t.out = s.out) :
    t.storeBytes = s.storeBytes := by
  funext b; cases b <;> simp [State.storeBytes, hi, hp, ho]

theorem storeBytes_inBuf (s : State) : s.storeBytes .inBuf = s.inReg := rfl

theorem storeBytes_pktData (s : State) : s.storeBytes .pktData = s.pkt.data := rfl

theorem storeBytes_outBuf (s : State) : s.storeBytes .outBuf = s.out := rfl

/-- A store holds a value exactly at the indices below its length. -/
theorem memRead_isSome (s : State) (b : Store) (i : Nat) :
    (s.memRead b i).isSome ↔ i < (s.storeBytes b).length := by
  simp [State.memRead]

/-! ### Operands -/

theorem withIn_unwritten (op : List Byte → State → State) (h : s.inWritten = false) :
    withIn s op = .next (s.markFault .unwrittenOperand) := by simp [withIn, h]

theorem withIn_written (op : List Byte → State → State) (h : s.inWritten = true) :
    withIn s op = .next (op s.inReg s.clearResults) := by simp [withIn, h]

theorem withPkt_unwritten (op : Packet → State → State) (h : s.pktWritten = false) :
    withPkt s op = .next (s.markFault .unwrittenOperand) := by simp [withPkt, h]

theorem withPkt_written (op : Packet → State → State) (h : s.pktWritten = true) :
    withPkt s op = .next (op (pktPacket s.pkt) s.clearResults) := by simp [withPkt, h]

/-- Everything a command on IN can answer. -/
theorem withIn_cases {op : List Byte → State → State} (h : withIn s op = .next t) :
    (s.inWritten = false ∧ t = s.markFault .unwrittenOperand) ∨
    (s.inWritten = true ∧ t = op s.inReg s.clearResults) := by
  cases hw : s.inWritten with
  | false => rw [withIn_unwritten op hw] at h; exact .inl ⟨rfl, (Host.Outcome.next.inj h).symm⟩
  | true => rw [withIn_written op hw] at h; exact .inr ⟨rfl, (Host.Outcome.next.inj h).symm⟩

/-- Everything a command on PKT can answer. -/
theorem withPkt_cases {op : Packet → State → State} (h : withPkt s op = .next t) :
    (s.pktWritten = false ∧ t = s.markFault .unwrittenOperand) ∨
    (s.pktWritten = true ∧ t = op (pktPacket s.pkt) s.clearResults) := by
  cases hw : s.pktWritten with
  | false => rw [withPkt_unwritten op hw] at h; exact .inl ⟨rfl, (Host.Outcome.next.inj h).symm⟩
  | true => rw [withPkt_written op hw] at h; exact .inr ⟨rfl, (Host.Outcome.next.inj h).symm⟩

/-! ### How a command finishes -/

@[simp] theorem finishBytes_ok (s : State) (r : List Byte) :
    s.finishBytes (.ok r) = (s.setOut r).setStatus .ok := rfl

@[simp] theorem finishBytes_error (s : State) (k : Status) : s.finishBytes (.error k) = s.setStatus k := rfl

@[simp] theorem finishPacket_ok (s : State) (p : Packet) :
    s.finishPacket (.ok p) = ((s.setRes (packetRes p)).setOut (p.data.getD [])).setStatus .ok := rfl

@[simp] theorem finishPacket_error (s : State) (k : Status) : s.finishPacket (.error k) = s.setStatus k := rfl

/-! ### The stores' form -/

theorem reset_wf : Memory.wf State.reset := ⟨Nat.zero_le _, Nat.zero_le _, Nat.zero_le _⟩

theorem wf_congr (hs : Memory.wf s) (hi : t.inReg = s.inReg) (hp : t.pkt = s.pkt) (ho : t.out = s.out) :
    Memory.wf t := by
  unfold Memory.wf; rw [storeBytes_congr hi hp ho]; exact hs

theorem setIn_wf (hs : Memory.wf s) {bytes : List Byte} (h : bytes.length ≤ Config.inCap) :
    Memory.wf (s.setIn bytes) := ⟨h, hs.2⟩

theorem setPkt_wf (hs : Memory.wf s) {p : PktReg} (h : p.data.length ≤ Config.dataMax) :
    Memory.wf (s.setPkt p) := ⟨hs.1, h, hs.2.2⟩

theorem setOut_wf (hs : Memory.wf s) {r : List Byte} (h : r.length ≤ Config.outCap) :
    Memory.wf (s.setOut r) := ⟨hs.1, hs.2.1, h⟩

theorem clearResults_wf (hs : Memory.wf s) : Memory.wf s.clearResults := ⟨hs.1, hs.2.1, Nat.zero_le _⟩

theorem resetRegisters_wf (s : State) : Memory.wf s.resetRegisters :=
  ⟨Nat.zero_le _, Nat.zero_le _, Nat.zero_le _⟩

/-- WRIN keeps the stores' form: it refuses what does not fit (R56). -/
theorem writeIn_wf (hs : Memory.wf s) (bytes : List Byte) : Memory.wf (writeIn bytes s) := by
  unfold writeIn
  split
  · exact setIn_wf hs ‹_›
  · exact wf_congr hs rfl rfl rfl

/-- WRPKT keeps the stores' form: it refuses what does not fit (R56). -/
theorem writePkt_wf (hs : Memory.wf s) (p : Packet) : Memory.wf (writePkt p s) := by
  unfold writePkt
  split
  · exact setPkt_wf hs ‹_›
  · exact wf_congr hs rfl rfl rfl

/-- A read of OUT_BUF keeps the stores' form. -/
theorem readOutByte_wf (hs : Memory.wf s) (i : Nat) : Memory.wf (readOutByte i s) := by
  unfold readOutByte
  split <;> exact wf_congr hs rfl rfl rfl

end Sys2Proof.Machine
end

