-- ==== Sys2Proof/Laws/PerInstr.lean ====
section
/-!
SUPPORT. Statements made per instruction: the word of each operation (`30_encoding.md` R71) decodes to that operation.
-/

namespace Sys2Proof.Laws.Encoding

/-- The instruction is well-formed and its word decodes to it. -/
def Statement (i : Instr) : Prop := i.wellFormed = true ∧ decodeWord (encodeWord i) = .ok i

theorem crc8 : Statement .crc8 := ⟨rfl, rfl⟩

theorem stuff : Statement .stuff := ⟨rfl, rfl⟩

theorem destuff : Statement .destuff := ⟨rfl, rfl⟩

theorem encode : Statement .encode := ⟨rfl, rfl⟩

theorem decode : Statement .decode := ⟨rfl, rfl⟩

end Sys2Proof.Laws.Encoding
end

