-- ==== Sys2Proof/Laws/Step.lean ====
section
/-!
SUPPORT. What one step can do, said once: the marks' guard, the host's next line, and the actions.
-/

namespace Sys2Proof.Machine

variable {s t : State}

theorem guardMarks_unmarked (h : s.unmarked) (go : Host.Outcome State Fault Refusal) :
    guardMarks s go = go := by
  simp [guardMarks, h.1, h.2]

/-- Only an unmarked state passes the guard. -/
theorem guardMarks_next {go : Host.Outcome State Fault Refusal} (h : guardMarks s go = .next t) :
    s.unmarked ∧ go = .next t := by
  cases hf : s.faulted with
  | some f => simp [guardMarks, hf] at h
  | none =>
    cases hr : s.refused with
    | some r => simp [guardMarks, hf, hr] at h
    | none => exact ⟨⟨hf, hr⟩, by simpa [guardMarks, hf, hr] using h⟩

theorem nextAction_nil (h : s.pending = []) : nextAction s = .next s := by simp [nextAction, h]

theorem nextAction_cons {l : Line} {rest : List Line} (h : s.pending = l :: rest) :
    nextAction s = performLine l rest s := by simp [nextAction, h]

/-- Everything a step that answers a next state can have done. -/
theorem step_cases (h : step s = .next t) :
    s.unmarked ∧
    ((s.pending = [] ∧ t = s) ∨
     ∃ l rest, s.pending = l :: rest ∧
       perform (expandLine s l).1 (s.setPending ((expandLine s l).2 ++ rest)) = .next t) := by
  obtain ⟨hm, hn⟩ := guardMarks_next h
  refine ⟨hm, ?_⟩
  cases hp : s.pending with
  | nil => rw [nextAction_nil hp] at hn; exact .inl ⟨rfl, (Host.Outcome.next.inj hn).symm⟩
  | cons l rest => rw [nextAction_cons hp] at hn; exact .inr ⟨l, rest, rfl, hn⟩

/-- Everything a command word can do: nothing but BAD_OP, or the operation it selects. -/
theorem command_cases (w : Byte) (s : State) :
    ((∃ k, decodeWord w = .error k) ∧ command w s = .next s.badOp) ∨
    ∃ i, decodeWord w = .ok i ∧ command w s = exec i s := by
  cases h : decodeWord w with
  | error k => exact .inl ⟨⟨k, rfl⟩, by simp [command, h]⟩
  | ok i => exact .inr ⟨i, rfl, by simp [command, h]⟩

theorem command_ok {w : Byte} {i : Instr} (h : decodeWord w = .ok i) (s : State) :
    command w s = exec i s := by simp [command, h]

theorem writeIn_fits {bytes : List Byte} (h : bytes.length ≤ Config.inCap) :
    writeIn bytes s = s.setIn bytes := by simp [writeIn, h]

theorem writePkt_fits {p : Packet} (h : (p.data.getD []).length ≤ Config.dataMax) :
    writePkt p s = s.setPkt (packetPkt p) := by simp [writePkt, h]

end Sys2Proof.Machine
end

