-- ==== Sys2Proof/Tests/Slice0.lean ====
section
/-!
SUPPORT. Tests of the model. Every expected value is from `95_test_vectors.md` or from a rule's own table or example; then,
for each statement with hypotheses, a state and operands that meet them together, at the edges of its ranges.
-/

-- Each test is checked by the kernel; one after another they need few threads.
set_option Elab.async false

namespace Sys2Proof.Tests

open Sys2Proof.Machine

/-- The next state of an outcome. -/
def nextOf : Host.Outcome State Fault Refusal → Option State
  | .next t => some t
  | .fault _ => none
  | .refused _ => none

/-- The reset state with IN written. -/
def withInput (bytes : List Byte) : State := State.reset.setIn bytes

/-- The reset state with PKT written. -/
def withPacket (p : Packet) : State := State.reset.setPkt (packetPkt p)

/-! ### Decoding: each word written out from R70 and R71 (`RSV` five zeros, then `OP`) -/

theorem test_decode_crc8 : decodeWord 0b00000000 = .ok .crc8 := by rfl

theorem test_decode_stuff : decodeWord 0b00000001 = .ok .stuff := by rfl

theorem test_decode_destuff : decodeWord 0b00000010 = .ok .destuff := by rfl

theorem test_decode_encode : decodeWord 0b00000011 = .ok .encode := by rfl

theorem test_decode_decode : decodeWord 0b00000100 = .ok .decode := by rfl

theorem test_decode_op5_reserved : decodeWord 0b00000101 = .error .reservedOp := by rfl

theorem test_decode_op7_reserved : decodeWord 0b00000111 = .error .reservedOp := by rfl

theorem test_decode_rsv1_reserved : decodeWord 0b00001000 = .error .reservedBits := by rfl

theorem test_decode_ff_reserved : decodeWord 0b11111111 = .error .reservedBits := by rfl

theorem test_table_word : decodeTableWord 8 4 = some .decode := by rfl

/-- R72 by its definition: 251 words are reserved, not the 248 its last sentence counts (log 6). -/
theorem test_reserved_count :
    ((List.range 256).filter (fun w => !(decodeWord (BitVec.ofNat 8 w)).isOk)).length = 251 := by
  decide +kernel

/-! ### Well-formedness: a term each check refuses, and one it takes (R56) -/

theorem test_wrin_too_long_ill_formed :
    (Action.wrin (List.replicate (Config.inCap + 1) 0)).wellFormed = false := by
  simp [Action.wellFormed]

theorem test_wrin_517_well_formed : (Action.wrin (List.replicate 517 0)).wellFormed = true := by
  unfold Action.wellFormed
  exact decide_eq_true (le_inCap (Nat.le_of_eq List.length_replicate))

theorem test_wrpkt_256_ill_formed :
    (Action.wrpkt ⟨none, 0, some (List.replicate 256 0)⟩).wellFormed = false := by decide +kernel

theorem test_wrpkt_255_well_formed :
    (Action.wrpkt ⟨none, 0, some (List.replicate 255 0)⟩).wellFormed = true := by decide +kernel

/-! ### CRC-8 (section 2) -/

/-- S1. -/
theorem test_crc8_s1 :
    (nextOf (exec .crc8 (withInput [1, 2, 3, 4, 5]))).map (fun t => (t.crcOut, t.status, t.out)) =
      some (0xD6, 0x0, []) := by decide +kernel

/-- S10, and the table `T` of section 2.2 at 0x01 and 0x80. -/
theorem test_crc_empty_and_table : crc8 [] = 0xDE ∧ crcByte 0x00 0x01 = 0x5E ∧ crcByte 0x00 0x80 = 0x8C := by
  decide +kernel

/-! ### STUFF and DESTUFF (section 3) -/

theorem test_stuff_escapes :
    (nextOf (exec .stuff (withInput [0xC0, 0xDB, 0xDC, 0xC0, 0xDD]))).map (fun t => (t.out, t.status)) =
      some ([0xC0, 0xDB, 0xDD, 0xDC, 0xDB, 0xDC, 0xDD], 0x0) := by decide +kernel

theorem test_stuff_empty :
    (nextOf (exec .stuff (withInput []))).map (fun t => (t.out, t.status)) = some ([], 0x8) := by
  decide +kernel

theorem test_destuff_pairs :
    (nextOf (exec .destuff (withInput [0xDB, 0xDC, 0xDB, 0xDD]))).map (fun t => (t.out, t.status)) =
      some ([0xC0, 0xDB], 0x0) := by decide +kernel

/-- The leftmost bad escape wins over the later truncated one. -/
theorem test_destuff_leftmost_error :
    (nextOf (exec .destuff (withInput [0x01, 0xDB, 0x00, 0xDB]))).map (fun t => (t.out, t.status)) =
      some ([], 0x3) := by decide +kernel

/-! ### ENCODE (section 4) -/

/-- S3. -/
theorem test_encode_s3 :
    (nextOf (exec .encode (withPacket ⟨some 0x12, 0x03, some [0x00, 0xEB]⟩))).map (fun t => (t.out, t.status)) =
      some ([0xC0, 0x92, 0x03, 0x02, 0x00, 0xEB, 0x72], 0x0) := by decide +kernel

/-- `PKT_ADDR` is ignored when absent. -/
theorem test_encode_ignores_absent_addr :
    (nextOf (exec .encode (State.reset.setPkt ⟨false, 0xFF, 0x00, false, []⟩))).map (fun t => (t.out, t.status)) =
      some ([0xC0, 0x00, 0x00, 0xBE], 0x0) := by decide +kernel

/-! ### DECODE (section 5) -/

/-- Program P3's frame: an escaped address byte and escaped data. -/
theorem test_decode_escaped_frame :
    (nextOf (exec .decode
      (withInput [0xC0, 0xDB, 0xDC, 0x01, 0x02, 0xDB, 0xDC, 0xDB, 0xDD, 0x69]))).map
        (fun t => (t.status, t.res, t.out)) =
      some (0x0, ⟨true, 0x40, 0x01, true⟩, [0xC0, 0xDB]) := by decide +kernel

/-- The shortfall of R154: length byte C0, no CRC byte. -/
theorem test_decode_no_crc_byte :
    (nextOf (exec .decode (withInput [0xC0, 0x03, 0xDB, 0xDC]))).map (fun t => (t.status, t.res, t.out)) =
      some (0x4, ResReg.zero, []) := by decide +kernel

/-! ### Command words, marks and reset (section 6) -/

theorem test_reserved_word_after_reset :
    (nextOf (step (State.reset.withFetchWord 8 0x05))).map (fun t => (t.status, t.faulted)) =
      some (0x9, none) := by decide +kernel

theorem test_unwritten_operand_after_reset :
    (nextOf (step (State.reset.withFetchWord 8 0x00))).map (fun t => (t.status, t.faulted)) =
      some (0xF, some .unwrittenOperand) := by decide +kernel

theorem test_fetch_word_runs_crc8 :
    (nextOf (step ((withInput [0xC0, 0x03, 0x00]).withFetchWord 8 0x00))).map State.crcOut = some 0xEB := by
  decide +kernel

/-- R230: RESET keeps the marks. -/
theorem test_reset_keeps_mark :
    (nextOf (perform .reset (State.reset.markFault .unwrittenOperand))).map State.faulted =
      some (some .unwrittenOperand) := by decide +kernel

/-- R55: a read at OUT_LEN is refused, the one before it is not. -/
theorem test_read_past_len :
    (readOutByte 2 (State.reset.setOut [7, 8])).refused = some .readPastLen ∧
    (readOutByte 1 (State.reset.setOut [7, 8])).reads = [.num 8] := by decide +kernel

/-- P4 lines 8 and 9, and section 6: whatever was written before, after RESET both operands are unwritten again, and the
values they hold do not let a command run. -/
theorem test_reset_makes_operands_unwritten :
    (nextOf (exec .decode ((withInput [0xC0, 0x03, 0x00, 0xEB]).resetRegisters))).map
      (fun t => (t.faulted, t.status, t.pktWritten)) = some (some .unwrittenOperand, 0xF, false) := by decide +kernel

/-! ### Witnesses: hypotheses that can be met, at the edges of their ranges -/

theorem witness_DecodeEncodeAgree :
    Instr.decode.wellFormed = true ∧ decodeWord 0x04 = .ok .decode := ⟨rfl, rfl⟩

theorem witness_ReservedWordGivesBadOp :
    (0x08 : Byte) >>> 3 ≠ 0 ∧ (0xFF : Byte) >>> 3 ≠ 0 ∧ (0x05 : Byte) &&& 0x07 = 5 ∧ (0x06 : Byte) &&& 0x07 = 6 ∧
    (0x07 : Byte) &&& 0x07 = 7 := by decide

theorem witness_StatusCodesOfKinds : statusCode .ok = statusCode .ok := rfl

theorem witness_CrcBitFollowsRecurrence :
    ((1 : Byte) ^^^ 0xDE) &&& 1 = 1 ∧ ((0 : Byte) ^^^ 0xDE) &&& 1 = 0 ∧
    (0x01 : Byte).getLsbD 0 = (0xFF : Byte).getLsbD 0 := by decide

theorem witness_DestufferReportsLeftmostBadEscape :
    destuffBytes [0xDB, 0xDD] = .ok [0xDB] ∧ (0xDE : Byte) ≠ 0xDD ∧ (0xDB : Byte) ≠ 0xDC := ⟨rfl, by decide, by decide⟩

theorem witness_StuffThenDestuffGivesInputBack :
    (withInput [0xC0, 0xC0, 0xDB]).inWritten = true ∧
    (withInput [0xC0, 0xC0, 0xDB]).inReg = 0xC0 :: [0xC0, 0xDB] ∧ (0xC0 : Byte) ≠ 0xDB :=
  ⟨rfl, rfl, by decide⟩

theorem witness_StuffedLengthCountsEscapes :
    stuffBytes (0xDB :: []) = .ok [0xDB] ∧ stuffBytes (0xC0 :: [0xC0]) = .ok [0xC0, 0xDB, 0xDC] := ⟨rfl, rfl⟩

theorem witness_DestuffedLengthBounds : destuffBytes [0xDB, 0xDC, 0x01] = .ok [0xC0, 0x01] := rfl

theorem witness_StuffedShapeHasNoLaterFend :
    stuffBytes [0xC0, 0xDB] = .ok [0xC0, 0xDB, 0xDD] ∧ ([0xC0, 0xDB, 0xDD] : List Byte)[1]? = some 0xDB := ⟨rfl, rfl⟩

/-- A packet with every field at the top of its range. -/
theorem largest_encodable : (⟨some 0x7F, 0x7F, some (List.replicate 255 0xC0)⟩ : Packet).encodable := by
  refine ⟨fun a h => ?_, by decide, Nat.le_of_eq List.length_replicate⟩
  cases h; decide

theorem smallest_encodable : (⟨none, 0x00, some []⟩ : Packet).encodable :=
  ⟨fun _ h => (by cases h), by decide, Nat.zero_le _⟩

theorem witness_EncodedLengthIsFrameAndEscapes :
    (⟨some 0x7F, 0x7F, some (List.replicate 255 0xC0)⟩ : Packet).encodable ∧
    (⟨none, 0x00, some []⟩ : Packet).encodable := ⟨largest_encodable, smallest_encodable⟩

theorem witness_EncoderIsSixSteps :
    ((⟨none, 0x00, some (List.replicate 255 0)⟩ : Packet).data.getD []).length ≤ 255 :=
  Nat.le_of_eq List.length_replicate

theorem witness_DecodeReportsFirstFailedCheck_early :
    ([0xC1, 0x03, 0x00] : List Byte).length < 4 ∧ ([0xC1, 0x03, 0x00, 0xEB] : List Byte).head? ≠ some 0xC0 ∧
    destuffBytes [0x03, 0xDB, 0x00, 0xEB] = .error .destuff := ⟨by decide, by decide, rfl⟩

theorem witness_DecodeReportsFirstFailedCheck_late :
    destuffBytes [0x92, 0x03, 0x00] = .ok [0x92, 0x03, 0x00] ∧
    ([0x92, 0x03, 0x00] : List Byte).length ≠ 1 + 3 + (([0x92, 0x03, 0x00] : List Byte).getD 2 0).toNat ∧
    destuffBytes [0x03, 0x00, 0xEA] = .ok [0x03, 0x00, 0xEA] ∧
    ([0x03, 0x00, 0xEA] : List Byte).length = 0 + 3 + (([0x03, 0x00, 0xEA] : List Byte).getD 1 0).toNat ∧
    crc8 (0xC0 :: ([0x03, 0x00, 0xEA] : List Byte).dropLast) ≠ ([0x03, 0x00, 0xEA] : List Byte).getLastD 0 :=
  ⟨rfl, by decide, rfl, by decide, by decide +kernel⟩

theorem witness_DecodeOfEncodeGivesPacketBack :
    (withPacket ⟨some 0x7F, 0x7F, some (List.replicate 255 0xC0)⟩).pktWritten = true ∧
    (withPacket ⟨some 0x7F, 0x7F, some (List.replicate 255 0xC0)⟩).pkt =
      packetPkt ⟨some 0x7F, 0x7F, some (List.replicate 255 0xC0)⟩ ∧
    (⟨some 0x7F, 0x7F, some (List.replicate 255 0xC0)⟩ : Packet).encodable := ⟨rfl, rfl, largest_encodable⟩

/-- R161's own example: bit 4 of CB gives DB. -/
theorem witness_FlippedCrcBitMakesDecodeFail :
    (⟨none, 0x00, some [0x39]⟩ : Packet).encodable ∧
    frameBody ⟨none, 0x00, some [0x39]⟩ = .ok [0xC0, 0x00, 0x01, 0x39] ∧
    encodePacket ⟨none, 0x00, some [0x39]⟩ = .ok [0xC0, 0x00, 0x01, 0x39, 0xCB] ∧
    crc8 [0xC0, 0x00, 0x01, 0x39] = 0xCB ∧
    (0xCB : Byte) ≠ 0xC0 ∧ (0xCB : Byte) ≠ 0xDB ∧
    (0xCB : Byte) ^^^ ((1 : Byte) <<< 4) = 0xDB ∧ (0xCB : Byte) ^^^ ((1 : Byte) <<< 7) ≠ 0xDB ∧
    (withInput [0xC0, 0x00, 0x01, 0x39, 0xDB]).inWritten = true ∧
    (withInput [0xC0, 0x00, 0x01, 0x39, 0xDB]).inReg =
      ([0xC0, 0x00, 0x01, 0x39, 0xCB] : List Byte).dropLast ++
        [crc8 [0xC0, 0x00, 0x01, 0x39] ^^^ ((1 : Byte) <<< 4)] :=
  ⟨⟨fun _ h => (by cases h), by decide, by decide⟩, rfl, by decide +kernel, by decide +kernel, by decide, by decide,
    by decide, by decide, rfl, by decide +kernel⟩

theorem witness_EmptyDataEncodesAsAbsent :
    (withPacket ⟨none, 0x03, some []⟩).pktWritten = true ∧ (withPacket ⟨none, 0x03, none⟩).pktWritten = true ∧
    (withPacket ⟨none, 0x03, some []⟩).pkt = ⟨false, 0, 0x03, true, []⟩ ∧
    (withPacket ⟨none, 0x03, none⟩).pkt = ⟨false, 0, 0x03, false, []⟩ ∧
    (nextOf (exec .encode (withPacket ⟨none, 0x03, some []⟩))).map State.status = some 0x0 :=
  ⟨rfl, rfl, rfl, rfl, by decide +kernel⟩

theorem witness_Crc8CompletesWithChecksum : (withInput []).inWritten = true := rfl

theorem witness_StuffCompletesWithEscapedBytes :
    (withInput [0xDB]).inWritten = true ∧ (withInput [0xDB]).inReg = 0xDB :: [] ∧
    (withInput []).inWritten = true ∧ (withInput []).inReg = [] := ⟨rfl, rfl, rfl, rfl⟩

theorem witness_DestuffCompletesWithScan :
    (withInput [0xDB, 0xDC]).inWritten = true ∧ Reference.destuffScan (withInput [0xDB, 0xDC]).inReg = .ok [0xC0] ∧
    Reference.destuffScan (withInput [0xDB]).inReg = .error .wrongLen ∧ Reference.destuffScan [0xDB, 0xDB] = .error .destuff :=
  ⟨rfl, rfl, rfl, rfl⟩

theorem witness_EncodeCompletesWithFrame :
    (State.reset.setPkt ⟨true, 0x7F, 0x7F, true, List.replicate 255 0⟩).pktWritten = true ∧
    (State.reset.setPkt ⟨true, 0x7F, 0x7F, true, List.replicate 255 0⟩).pkt =
      ⟨true, 0x7F, 0x7F, true, List.replicate 255 0⟩ ∧
    (0x7F : Byte) ≤ 0x7F ∧ (List.replicate 255 (0 : Byte)).length ≤ 255 :=
  ⟨rfl, rfl, by decide, Nat.le_of_eq List.length_replicate⟩

theorem witness_EncodeRangeErrorsAddressFirst :
    (State.reset.setPkt ⟨true, 0x80, 0x80, false, []⟩).pktWritten = true ∧
    (State.reset.setPkt ⟨true, 0x80, 0x80, false, []⟩).pkt = ⟨true, 0x80, 0x80, false, []⟩ ∧
    (0x80 : Byte) > 0x7F ∧ ¬ ((false : Bool) = true ∧ (0xFF : Byte) > 0x7F) := ⟨rfl, rfl, by decide, by decide⟩

/-- The frame of R155's vector: a command byte above 0x7F after an address byte, no data. -/
theorem witness_DecodeCompletesWithAddress :
    (withInput [0xC0, 0x92, 0x85, 0x00, 0x9A]).inWritten = true ∧
    (withInput [0xC0, 0x92, 0x85, 0x00, 0x9A]).inReg = 0xC0 :: [0x92, 0x85, 0x00, 0x9A] ∧
    3 ≤ ([0x92, 0x85, 0x00, 0x9A] : List Byte).length ∧ (0x92 : Byte).getLsbD 7 = true ∧
    ([] : List Byte).length ≤ 255 ∧
    destuffBytes [0x92, 0x85, 0x00, 0x9A] =
      .ok (0x92 :: 0x85 :: BitVec.ofNat 8 ([] : List Byte).length :: [] ++
        [crc8 (0xC0 :: 0x92 :: 0x85 :: BitVec.ofNat 8 ([] : List Byte).length :: [])]) :=
  ⟨rfl, rfl, by decide, by decide, by decide, by decide +kernel⟩

theorem witness_DecodeCompletesWithoutAddress :
    (withInput [0xC0, 0x01, 0x01, 0xDB, 0xDC, 0x88]).inWritten = true ∧
    (withInput [0xC0, 0x01, 0x01, 0xDB, 0xDC, 0x88]).inReg = 0xC0 :: [0x01, 0x01, 0xDB, 0xDC, 0x88] ∧
    3 ≤ ([0x01, 0x01, 0xDB, 0xDC, 0x88] : List Byte).length ∧ (0x01 : Byte).getLsbD 7 = false ∧
    ([0xC0] : List Byte).length ≤ 255 ∧
    destuffBytes [0x01, 0x01, 0xDB, 0xDC, 0x88] =
      .ok (0x01 :: BitVec.ofNat 8 ([0xC0] : List Byte).length :: [0xC0] ++
        [crc8 (0xC0 :: 0x01 :: BitVec.ofNat 8 ([0xC0] : List Byte).length :: [0xC0])]) :=
  ⟨rfl, rfl, by decide, by decide, by decide, by decide +kernel⟩

theorem witness_FailedDecodeWritesOnlyStatus :
    (withInput [0xC0, 0x03, 0x00]).inWritten = true ∧
    Reference.decodeSteps (withInput [0xC0, 0x03, 0x00]).inReg = .error .tooShort := ⟨rfl, rfl⟩

theorem witness_UnwrittenOperandSetsFaultMarkOnly :
    operandWritten .crc8 State.reset = false ∧ operandWritten .encode (withInput [1]) = false := ⟨rfl, rfl⟩

theorem witness_CommandsLeaveOperandsUnchanged :
    operandWritten .decode (withInput [0x00]) = true ∧
    exec .decode (withInput [0x00]) = .next ((withInput [0x00]).clearResults.setStatus .tooShort) := ⟨rfl, rfl⟩

theorem witness_CommandsLeaveOnlyTheirOwnResults :
    operandWritten .stuff (withInput []) = true ∧
    exec .stuff (withInput []) = .next ((withInput []).clearResults.setStatus .empty) ∧ statusCode .empty ≠ 0x0 :=
  ⟨rfl, rfl, by decide⟩

theorem witness_StatusCausesPerCommand :
    (withInput []).inWritten = true ∧ (withPacket ⟨some 0x80, 0, none⟩).pktWritten = true ∧
    exec .encode (withPacket ⟨some 0x80, 0, none⟩) =
      .next ((withPacket ⟨some 0x80, 0, none⟩).clearResults.setStatus .addrRange) := ⟨rfl, rfl, rfl⟩

theorem witness_ResultsDependOnOperandsAlone :
    ((withInput []).setCrcOut 7).inReg = (withInput []).inReg ∧
    ((withInput []).setCrcOut 7).pkt = (withInput []).pkt ∧ operandWritten .stuff (withInput []) = true ∧
    operandWritten .stuff ((withInput []).setCrcOut 7) = true ∧
    exec .stuff ((withInput []).setCrcOut 7) =
      .next (((withInput []).setCrcOut 7).clearResults.setStatus .empty) := ⟨rfl, rfl, rfl, rfl, rfl⟩

theorem witness_RepeatedCommandChangesNothing :
    exec .crc8 State.reset = .next (State.reset.markFault .unwrittenOperand) := rfl

theorem witness_WrinSetsInOnly : (List.replicate 517 (0 : Byte)).length ≤ Config.inCap :=
  le_inCap (Nat.le_of_eq List.length_replicate)

theorem witness_WrpktSetsPktOnly : ((some (List.replicate 255 (0 : Byte))).getD []).length ≤ 255 :=
  Nat.le_of_eq List.length_replicate

theorem witness_OverlongWritesAreRefused :
    Config.inCap < (List.replicate (Config.inCap + 1) (0 : Byte)).length ∧
    255 < ((some (List.replicate 256 (0 : Byte))).getD []).length ∧ State.reset.refused = none ∧
    perform (.wrpkt ⟨none, 0, none⟩) State.reset = .next (State.reset.setPkt ⟨false, 0, 0, false, []⟩) :=
  ⟨by rw [List.length_replicate]; exact Nat.lt_add_one _, by decide +kernel, rfl, rfl⟩

theorem witness_ReadsReturnFieldsAndChangeNothing : (State.reset.setOut [7]).out[0]? = some 7 := rfl

theorem witness_ForbiddenAccessesAreRefused : (State.reset.setOut [7]).out.length ≤ 1 := Nat.le_refl 1

/-- A state that meets the invariant, with an operand written and a line to come. -/
def readyState : State := (withPacket ⟨none, 0x03, none⟩).setPending [.op .encode]

theorem readyState_inv : readyState.Inv where
  stores := ⟨Nat.zero_le _, Nat.zero_le _, Nat.zero_le _⟩
  unwrittenIn := fun _ => rfl
  unwrittenPkt := fun h => by cases h
  pktAbsentAddr := fun _ => rfl
  pktAbsentData := fun _ => rfl
  statusCodes := .inr rfl
  failedEmpty := fun _ => ⟨rfl, rfl, rfl⟩
  crcAlone := fun _ => ⟨rfl, rfl⟩
  resAbsentAddr := fun _ => ⟨rfl, by decide +kernel⟩
  resData := fun h => by cases h
  resNoData := fun h => absurd rfl h
  oneMark := .inl rfl

theorem witness_EncodeResultAlwaysFitsInput :
    readyState.Inv ∧ readyState.pktWritten = true ∧
    (nextOf (exec .encode readyState)).map State.status = some 0x0 :=
  ⟨readyState_inv, rfl, by decide +kernel⟩

theorem witness_EveryStepKeepsInvariant :
    readyState.Inv ∧ (nextOf (step readyState)).map State.out = some [0xC0, 0x03, 0x00, 0xEB] :=
  ⟨readyState_inv, by decide +kernel⟩

theorem witness_StepRunsDecodedInstruction :
    ((withInput [1]).withFetchWord 8 0x00).faulted = none ∧ ((withInput [1]).withFetchWord 8 0x00).refused = none ∧
    ((withInput [1]).withFetchWord 8 0x00).pending = .act (.cmdw 0x00) :: [] ∧ decodeWord 0x00 = .ok .crc8 ∧
    Instr.crc8.wellFormed = true := ⟨rfl, rfl, rfl, rfl, rfl⟩

theorem witness_LinesExpandAsWritten :
    readyState.faulted = none ∧ readyState.refused = none ∧ readyState.pending = .op .encode :: [] ∧
    (State.reset.setPending [.act (.cmdw 0xFF)]).pending = .act (.cmdw 0xFF) :: [] ∧
    (State.reset.setPending [.act .rdCmd]).pending = .act .rdCmd :: [] ∧
    (State.reset.setPending [.loop]).pending = .loop :: [] ∧
    (State.reset.setPending [.send ⟨none, 0, none⟩]).pending = .send ⟨none, 0, none⟩ :: [] ∧
    (State.reset.setPending [.recv []]).pending = .recv [] :: [] := ⟨rfl, rfl, rfl, rfl, rfl, rfl, rfl, rfl⟩

theorem witness_MarkedStateTakesNoStep :
    (State.reset.markFault .unwrittenOperand).faulted = some .unwrittenOperand ∧
    (State.reset.markRefused .overCap).faulted = none ∧
    (State.reset.markRefused .overCap).refused = some .overCap := ⟨rfl, rfl, rfl⟩

theorem witness_UnmarkedStateAlwaysSteps :
    State.reset.faulted = none ∧ State.reset.refused = none ∧ State.reset.pending = [] := ⟨rfl, rfl, rfl⟩

theorem witness_OnlyCommandsAndResetWriteResults :
    step (State.reset.setPending [.loop]) =
      .next ((State.reset.logRead (.bytes [])).setPending [.act (.wrin [])]) ∧
    (∀ w rest, (State.reset.setPending [.loop]).pending ≠ .act (.cmdw w) :: rest) ∧
    (∀ i rest, (State.reset.setPending [.loop]).pending ≠ .op i :: rest) ∧
    (∀ rest, (State.reset.setPending [.loop]).pending ≠ .act .reset :: rest) :=
  ⟨rfl, fun _ _ h => (by cases h), fun _ _ h => (by cases h), fun _ h => (by cases h)⟩

end Sys2Proof.Tests
end

section
/-!
PROOFS. The CRC-8 engine (`40_crc.md` section 1): the bit step's two branches (R100), the byte step's order of bits (R101)
and the checksum as a fold over the bytes, which the indexed loop of R102 runs position by position.
-/

namespace Sys2Proof.Machine

open Sys2Proof.Reference

/-! ### The bit step (R100) -/

/-- The recurrence's condition compares bit 0 of the input with bit 0 of the accumulator. -/
theorem xor_and_one_eq_one_iff (acc b : Byte) :
    (b ^^^ acc) &&& 1 = 1 ↔ (b.getLsbD 0 ^^ acc.getLsbD 0) = true := by
  have hbit : (b ^^^ acc) &&& 1 = (BitVec.ofBool (b.getLsbD 0 ^^ acc.getLsbD 0)).setWidth 8 := by
    rw [← BitVec.getLsbD_xor]
    exact BitVec.and_one_eq_setWidth_ofBool_getLsbD
  rw [hbit]
  cases b.getLsbD 0 ^^ acc.getLsbD 0 <;> decide

theorem crcBit_of_bits_differ {acc b : Byte} (h : (b ^^^ acc) &&& 1 = 1) :
    crcBit acc b = ((acc ^^^ 0x18) >>> 1) ||| 0x80 := if_pos h

theorem crcBit_of_bits_agree {acc b : Byte} (h : (b ^^^ acc) &&& 1 = 0) :
    crcBit acc b = (acc >>> 1) &&& 0x7F := by
  have hne : ¬ (b ^^^ acc) &&& 1 = 1 := by rw [h]; decide
  exact if_neg hne

theorem crcBit_congr_bit_zero (acc : Byte) {b b' : Byte} (h : b.getLsbD 0 = b'.getLsbD 0) :
    crcBit acc b = crcBit acc b' := by
  simp only [crcBit, xor_and_one_eq_one_iff, h]

/-- Settles O8: each branch from its condition, and the condition reads bit 0 alone. -/
theorem crcBitFollowsRecurrence : Obligations.CrcBitFollowsRecurrence :=
  ⟨fun _ _ => crcBit_of_bits_differ, fun _ _ => crcBit_of_bits_agree, fun acc _ _ => crcBit_congr_bit_zero acc⟩

/-! ### The byte step (R101) -/

@[simp] theorem crcBits_zero (acc b : Byte) : crcBits 0 acc b = acc := rfl

/-- The last of `n + 1` bit steps is on the byte shifted right `n` times. -/
theorem crcBits_succ_last (n : Nat) (acc b : Byte) :
    crcBits (n + 1) acc b = crcBit (crcBits n acc b) (b >>> n) := by
  induction n generalizing acc b with
  | zero => simp [crcBits]
  | succ n ih =>
    calc crcBits (n + 2) acc b
        = crcBits (n + 1) (crcBit acc b) (b >>> 1) := rfl
      _ = crcBit (crcBits n (crcBit acc b) (b >>> 1)) (b >>> 1 >>> n) := ih _ _
      _ = crcBit (crcBits (n + 1) acc b) (b >>> (n + 1)) := by
        rw [← BitVec.shiftRight_add, Nat.add_comm 1 n]; rfl

/-- Settles O9, taking the eight steps off one at a time, the last first. -/
theorem crcByteTakesEightBitsLsbFirst : Obligations.CrcByteTakesEightBitsLsbFirst := by
  intro acc x
  simp [crcByte, crcBits_succ_last]

/-! ### The checksum of a sequence (R102) -/

theorem crcFrom_eq_foldl (acc : Byte) (s : List Byte) : crcFrom acc s = s.foldl crcByte acc := by
  induction s generalizing acc with
  | nil => rfl
  | cons x s ih => exact ih _

/-- Reading a sequence at every index in increasing order gives the sequence. -/
theorem map_at'_range_length (s : List Byte) : (List.range s.length).map (at' s) = s :=
  List.ext_getElem (by simp) fun i _ hi => by simp [at', hi]

theorem crcLoop_eq_foldl (s : List Byte) : crcLoop s = s.foldl crcByte 0xDE :=
  calc crcLoop s
      = ((List.range s.length).map (at' s)).foldl crcByte 0xDE := List.foldl_map.symm
    _ = s.foldl crcByte 0xDE := by rw [map_at'_range_length]

theorem crc8_eq_crcLoop (s : List Byte) : crc8 s = crcLoop s :=
  (crcFrom_eq_foldl crcInit s).trans (crcLoop_eq_foldl s).symm

/-- Settles O10: both sides are the fold of the byte step from 0xDE. -/
theorem crcOfSequenceIsIndexedLoop : Obligations.CrcOfSequenceIsIndexedLoop :=
  ⟨crc8_eq_crcLoop, rfl⟩

end Sys2Proof.Machine
end

section
/-!
PROOFS. The byte-stuffer and the byte-destuffer (`41_stuffing.md`) against their indexed loops: the loop of R120 appends the
escape of each byte after the first, and the scan of R122, standing at index `i`, has the destuffed form of `s.drop i` still
to add to its output.
-/

namespace Sys2Proof.Machine

open Sys2Proof.Reference

/-! ### The stuffer (R120) -/

/-- Reading a sequence at every index from 1 on gives the bytes after the first. -/
theorem map_at'_range'_one (b : Byte) (s : List Byte) :
    (List.range' 1 s.length).map (at' (b :: s)) = s :=
  calc (List.range' 1 s.length).map (at' (b :: s))
      = (List.range s.length).map (at' (b :: s) ∘ (1 + ·)) := by
        rw [List.range'_eq_map_range, List.map_map]
    _ = (List.range s.length).map (at' s) :=
        List.map_congr_left fun i _ => by simp [at', Nat.add_comm 1 i]
    _ = s := map_at'_range_length s

/-- The three branches of R120's round append the escape of the byte read. -/
theorem stuffRound_eq_append_escapeByte (r : List Byte) (b : Byte) :
    (if b = 0xDB then r ++ [0xDB, 0xDD] else if b = 0xC0 then r ++ [0xDB, 0xDC] else r ++ [b]) =
      r ++ escapeByte b := by
  obtain ⟨rfl, h⟩ | ⟨rfl, h⟩ | ⟨hesc, hend, h⟩ := escapeByte_cases b <;> rw [h]
  · rfl
  · rfl
  · exact (if_neg hesc).trans (if_neg hend)

theorem foldl_append_escapeByte (r s : List Byte) :
    s.foldl (fun r b => r ++ escapeByte b) r = r ++ escapeBytes s := by
  induction s generalizing r with
  | nil => simp
  | cons b s ih => simp [ih]

theorem stuffLoop_cons (b : Byte) (s : List Byte) : stuffLoop (b :: s) = .ok (b :: escapeBytes s) :=
  calc stuffLoop (b :: s)
      = .ok ((List.range' 1 s.length).foldl (fun r i => r ++ escapeByte (at' (b :: s) i)) [b]) := by
        simp only [stuffLoop, stuffRound_eq_append_escapeByte]; rfl
    _ = .ok (((List.range' 1 s.length).map (at' (b :: s))).foldl (fun r c => r ++ escapeByte c) [b]) := by
        rw [List.foldl_map]
    _ = .ok (b :: escapeBytes s) := by
        rw [map_at'_range'_one, foldl_append_escapeByte]; rfl

/-- Settles O13: both reject the empty sequence, and both escape every byte after the first. -/
theorem stufferIsIndexedLoop : Obligations.StufferIsIndexedLoop
  | [] => rfl
  | b :: s => (stuffBytes_cons b s).trans (stuffLoop_cons b s).symm

/-! ### The destuffer (R122) -/

/-- A FESC with no byte after it is a length error. -/
theorem destuffBytes_truncated : destuffBytes [fesc] = .error .wrongLen := rfl

section Round

variable {s t : List Byte} {i : Nat} {b : Byte}

/-- What stands at index `i` and after it, read off the rest of the sequence from `i` on. -/
theorem at'_of_drop_eq_cons (h : s.drop i = b :: t) :
    i < s.length ∧ at' s i = b ∧ s.drop (i + 1) = t := by
  have hi : i < s.length := by
    by_contra hlen
    simp [List.drop_eq_nil_of_le (Nat.not_lt.mp hlen)] at h
  rw [List.drop_eq_getElem_cons hi, List.cons.injEq] at h
  obtain ⟨hb, ht⟩ := h
  exact ⟨hi, by simp [at', hi, hb], ht⟩

/-- Past the end the scan keeps its output, whatever fuel is left. -/
theorem destuffLoop_of_drop_nil (h : s.drop i = []) (fuel : Nat) (r : List Byte) :
    destuffLoop s fuel i r = .ok r := by
  cases fuel with
  | zero => rfl
  | succ fuel => exact if_neg (Nat.not_lt.mpr (List.drop_eq_nil_iff.mp h))

/-- A round at a byte other than FESC. -/
theorem destuffLoop_of_plain (h : s.drop i = b :: t) (hb : b ≠ fesc) (fuel : Nat) (r : List Byte) :
    destuffLoop s (fuel + 1) i r = destuffLoop s fuel (i + 1) (r ++ [b]) := by
  obtain ⟨hi, rfl, -⟩ := at'_of_drop_eq_cons h
  exact (if_pos hi).trans (if_neg hb)

/-- A round at a FESC that is the last byte. -/
theorem destuffLoop_of_truncated (h : s.drop i = [fesc]) (fuel : Nat) (r : List Byte) :
    destuffLoop s (fuel + 1) i r = .error .wrongLen := by
  obtain ⟨hi, hesc, hend⟩ := at'_of_drop_eq_cons h
  exact (if_pos hi).trans ((if_pos hesc).trans (if_pos (List.drop_eq_nil_iff.mp hend)))

/-- A round at a FESC with a byte after it: the pair's byte is appended, or the pair's error ends the scan. -/
theorem destuffLoop_of_pair {c : Byte} (h : s.drop i = fesc :: c :: t) (fuel : Nat) (r : List Byte) :
    destuffLoop s (fuel + 1) i r =
      (unescapeByte c).bind fun e => destuffLoop s fuel (i + 2) (r ++ [e]) := by
  obtain ⟨hi, hesc, htail⟩ := at'_of_drop_eq_cons h
  obtain ⟨hi', rfl, -⟩ := at'_of_drop_eq_cons htail
  calc destuffLoop s (fuel + 1) i r
      = if at' s (i + 1) = tfesc then destuffLoop s fuel (i + 2) (r ++ [fesc])
        else if at' s (i + 1) = tfend then destuffLoop s fuel (i + 2) (r ++ [fend])
        else .error .destuff := (if_pos hi).trans ((if_pos hesc).trans (if_neg (Nat.not_le.mpr hi')))
    _ = (unescapeByte (at' s (i + 1))).bind fun e => destuffLoop s fuel (i + 2) (r ++ [e]) := by
        unfold unescapeByte; split_ifs <;> rfl

end Round

/-- A byte put before an output that follows `r` is a byte appended to `r`. -/
theorem map_append_map_cons (r : List Byte) (b : Byte) (x : Except Status (List Byte)) :
    (x.map (b :: ·)).map (r ++ ·) = x.map (r ++ [b] ++ ·) := by
  cases x <;> simp [Except.map]

/-- The scan from index `i` with output `r` and enough fuel appends the destuffed form of the bytes from `i` on. -/
theorem destuffLoop_eq_map_destuffBytes {s t : List Byte} {fuel i : Nat} (hdrop : s.drop i = t)
    (hfuel : t.length ≤ fuel) (r : List Byte) :
    destuffLoop s fuel i r = (destuffBytes t).map (r ++ ·) := by
  induction fuel generalizing i t r with
  | zero =>
    obtain rfl := List.length_eq_zero_iff.mp (Nat.le_zero.mp hfuel)
    rw [destuffLoop_of_drop_nil hdrop]; simp [Except.map]
  | succ fuel ih =>
    cases t with
    | nil => rw [destuffLoop_of_drop_nil hdrop]; simp [Except.map]
    | cons b t =>
      obtain ⟨-, -, htail⟩ := at'_of_drop_eq_cons hdrop
      have hlen : t.length ≤ fuel := Nat.le_of_succ_le_succ hfuel
      by_cases hb : b = fesc
      · subst hb
        cases t with
        | nil => rw [destuffLoop_of_truncated hdrop, destuffBytes_truncated]; rfl
        | cons c t =>
          obtain ⟨-, -, hrest⟩ := at'_of_drop_eq_cons htail
          rw [destuffLoop_of_pair hdrop]
          cases hc : unescapeByte c with
          | error k => rw [destuffBytes_badPair hc]; rfl
          | ok e =>
            rw [destuffBytes_pair hc, map_append_map_cons]
            exact ih hrest (Nat.le_of_succ_le hlen) (r ++ [e])
      · rw [destuffLoop_of_plain hdrop hb, destuffBytes_plain hb, map_append_map_cons]
        exact ih htail hlen (r ++ [b])

/-- Settles O14: the scan from index 0 with as much fuel as there are bytes. -/
theorem destufferIsIndexedScan : Obligations.DestufferIsIndexedScan := by
  intro s
  calc destuffBytes s
      = (destuffBytes s).map ([] ++ ·) := (id_map (destuffBytes s)).symm
    _ = destuffScan s := (destuffLoop_eq_map_destuffBytes List.drop_zero le_rfl []).symm

end Sys2Proof.Machine
end

section
/-!
PROOFS. The framer's encode and decode (`42_framer.md` R150, R152) against the spec's steps read by index: both encoders
build the same frame from the same address bytes, and the decoder's fields stand at the indices the pipeline reads.
-/

namespace Sys2Proof.Machine

open Sys2Proof.Reference

/-! ### Encode (R150) -/

/-- A length byte and the data, absent data counting as empty (R79). -/
theorem dataField_eq_length_cons (d : Option (List Byte)) :
    dataField d = BitVec.ofNat 8 (d.getD []).length :: d.getD [] := by
  cases d <;> rfl

/-- Step 2: no address, an address out of range, or an address in range. -/
theorem addrField_cases (addr : Option Byte) :
    (addr = none ∧ addrField addr = .ok []) ∨
    (∃ x, x > 0x7F ∧ addr = some x ∧ addrField addr = .error .addrRange) ∨
    (∃ x, x ≤ 0x7F ∧ addr = some x ∧ addrField addr = .ok [x ||| addrFlag]) := by
  cases addr with
  | none => exact .inl ⟨rfl, addrField_none⟩
  | some x =>
    by_cases hx : x > 0x7F
    · exact .inr (.inl ⟨x, hx, rfl, addrField_range hx⟩)
    · have hx : x ≤ 0x7F := BitVec.not_lt.mp hx
      exact .inr (.inr ⟨x, hx, rfl, addrField_some hx⟩)

theorem addrField_error {addr : Option Byte} {k : Status} (h : addrField addr = .error k) : k = .addrRange := by
  obtain ⟨-, h'⟩ | ⟨_, -, -, h'⟩ | ⟨_, -, -, h'⟩ := addrField_cases addr <;> rw [h'] at h <;> cases h
  rfl

section Encode

variable {p : Packet} {a buf : List Byte} {k : Status}

theorem frameBody_of_addrField_error (ha : addrField p.addr = .error k) : frameBody p = .error k := by
  simp [frameBody, ha]

theorem frameBody_of_cmd_range (ha : addrField p.addr = .ok a) (hc : p.cmd > 0x7F) :
    frameBody p = .error .cmdRange := by
  simp [frameBody, ha, cmdField_range hc]

/-- The frame without its CRC byte, when the address and the command are in range. -/
theorem frameBody_of_in_range (ha : addrField p.addr = .ok a) (hc : p.cmd ≤ 0x7F) :
    frameBody p = .ok (fend :: (a ++ p.cmd :: dataField p.data)) := by
  simp [frameBody, ha, cmdField_ok hc]

theorem encodePacket_of_frameBody_error (h : frameBody p = .error k) : encodePacket p = .error k := by
  simp [encodePacket, h]

theorem encodePacket_of_frameBody_ok (h : frameBody p = .ok buf) :
    encodePacket p = stuffBytes (buf ++ [crc8 buf]) := by
  simp [encodePacket, h]

end Encode

/-- Steps 3 to 6 with a command in range: command, length and data, then the CRC byte, then the stuffing. -/
theorem encodeRest_of_cmd_le {cmd : Byte} (hc : cmd ≤ 0x7F) (buf : List Byte) (data : Option (List Byte)) :
    encodeRest buf cmd data =
      stuffBytes (buf ++ cmd :: dataField data ++ [crc8 (buf ++ cmd :: dataField data)]) := by
  rw [stufferIsIndexedLoop, crc8_eq_crcLoop, encodeRest, if_neg (BitVec.not_lt.mpr hc)]
  cases data <;> simp [dataField]

/-- Steps 3 to 6 follow the address bytes of step 2, with the command's range error in step 3. -/
theorem encodePacket_eq_encodeRest {p : Packet} {a : List Byte} (ha : addrField p.addr = .ok a) :
    encodePacket p = encodeRest (fend :: a) p.cmd p.data := by
  by_cases hc : p.cmd > 0x7F
  · rw [encodePacket_of_frameBody_error (frameBody_of_cmd_range ha hc)]
    exact (if_pos hc).symm
  · have hc : p.cmd ≤ 0x7F := BitVec.not_lt.mp hc
    rw [encodePacket_of_frameBody_ok (frameBody_of_in_range ha hc), encodeRest_of_cmd_le hc]
    rfl

/-- Settles O20, by the three outcomes of step 2. -/
theorem encoderIsSixSteps : Obligations.EncoderIsSixSteps := by
  intro ⟨addr, cmd, data⟩ _
  obtain ⟨rfl, ha⟩ | ⟨x, hx, rfl, ha⟩ | ⟨x, hx, rfl, ha⟩ := addrField_cases addr
  · exact encodePacket_eq_encodeRest ha
  · have hbody := frameBody_of_addrField_error (p := ⟨some x, cmd, data⟩) ha
    exact (encodePacket_of_frameBody_error hbody).trans (if_pos hx).symm
  · exact (encodePacket_eq_encodeRest ha).trans (if_neg (BitVec.not_lt.mpr hx)).symm

/-! ### Decode (R152) -/

section Pipeline

variable {f tail : List Byte} {i : Nat} {cmd n : Byte}

/-- A frame that ends before its length byte is a length error (R154). -/
theorem decodeRest_of_missing_field (h : (f.drop i).length ≤ 1) (addr : Option Byte) :
    decodeRest f addr i = .error .wrongLen := by
  have hlen : f.length ≤ i + 1 := by rw [List.length_drop] at h; omega
  by_cases hi : i ≥ f.length
  · exact if_pos hi
  · exact (if_neg hi).trans (if_pos hlen)

/-- The checks from the length byte on are those of the pipeline. -/
theorem checkFrame_eq_decodeRest (h : f.drop i = cmd :: n :: tail) (addr : Option Byte) :
    checkFrame f addr cmd n tail = decodeRest f addr i := by
  obtain ⟨hi, hcmd, hdrop⟩ := at'_of_drop_eq_cons h
  obtain ⟨hi', hn, htail⟩ := at'_of_drop_eq_cons hdrop
  have hlen : f.length = i + 2 + tail.length := by
    rw [← htail, List.length_drop]
    omega
  have hlast : f.getLast? = some (at' f (f.length - 1)) := by
    rw [List.getLast?_eq_getElem?, at', List.getD_eq_getElem?_getD]
    simp [show f.length - 1 < f.length by omega]
  have hzero : n = 0 ↔ n.toNat = 0 := by bv_omega
  simp only [checkFrame, decodeRest, hcmd, hn, htail, hlast, crc8_eq_crcLoop, List.dropLast_eq_take, hzero,
    if_neg (Nat.not_le.mpr hi), if_neg (Nat.not_le.mpr hi'), ne_eq, Option.some.injEq]
  simp [hlen]

/-- Steps 4 to 8, `i` being the index of the command byte in the frame: 2 after an address byte, else 1. -/
theorem parseFrame_eq_decodeRest {body : List Byte} (h : (fend :: body).drop i = (splitAddr body).2) :
    parseFrame body = decodeRest (fend :: body) (splitAddr body).1 i := by
  rw [parseFrame]
  split
  next hfields => exact (decodeRest_of_missing_field (by simp [h, hfields]) _).symm
  next hfields => exact (decodeRest_of_missing_field (by simp [h, hfields]) _).symm
  next cmd n tail hfields => exact checkFrame_eq_decodeRest (h.trans hfields) _

end Pipeline

theorem splitAddr_of_flag {b : Byte} (h : b &&& addrFlag ≠ 0) (rest : List Byte) :
    splitAddr (b :: rest) = (some (b &&& 0x7F), rest) := if_pos h

theorem splitAddr_of_no_flag {b : Byte} (h : b &&& addrFlag = 0) (rest : List Byte) :
    splitAddr (b :: rest) = (none, b :: rest) := if_neg (not_not.mpr h)

/-- Steps 4 to 8 by index: the frame must have a byte after its start marker, and that byte says where the command
is. -/
theorem parseFrame_eq_indexed (body : List Byte) :
    parseFrame body =
      if 1 ≥ (fend :: body).length then .error .wrongLen
      else if at' (fend :: body) 1 &&& addrFlag ≠ 0 then
        decodeRest (fend :: body) (some (at' (fend :: body) 1 &&& 0x7F)) 2
      else decodeRest (fend :: body) none 1 := by
  cases body with
  | nil => rfl
  | cons b rest =>
    rw [if_neg (by simp), show at' (fend :: b :: rest) 1 = b from rfl]
    by_cases hflag : b &&& addrFlag = 0
    · rw [if_neg (not_not.mpr hflag), parseFrame_eq_decodeRest (i := 1), splitAddr_of_no_flag hflag]
      rw [splitAddr_of_no_flag hflag]; rfl
    · rw [if_pos hflag, parseFrame_eq_decodeRest (i := 2), splitAddr_of_flag hflag]
      rw [splitAddr_of_flag hflag]; rfl

/-- Settles O21, check by check in the pipeline's order. -/
theorem decoderIsIndexedPipeline : Obligations.DecoderIsIndexedPipeline := by
  intro raw
  by_cases hlen : raw.length < 4
  · exact (if_pos hlen).trans (if_pos hlen).symm
  obtain ⟨b, rest, rfl⟩ := List.exists_cons_of_length_pos (Nat.zero_lt_of_lt (Nat.not_lt.mp hlen))
  rw [decodeFrame, decodeSteps, if_neg hlen, if_neg hlen]
  by_cases hstart : b = fend
  · subst hstart
    have hfirst : ¬ at' (fend :: rest) 0 ≠ 0xC0 := not_not.mpr rfl
    rw [if_neg (by simp), if_neg hfirst, List.tail_cons, List.drop_succ_cons, List.drop_zero,
      ← destufferIsIndexedScan]
    cases destuffBytes rest with
    | error k => rfl
    | ok body => exact parseFrame_eq_indexed body
  · rw [if_pos (by simpa using hstart)]
    exact (if_pos hstart).symm

end Sys2Proof.Machine
end

section
/-!
PROOFS. Decode of what encode sends (`42_framer.md` R159, R160): destuffing undoes the escapes, and every check of the
pipeline passes on the frame encode built.
-/

namespace Sys2Proof.Machine

/-! ### Destuffing what was stuffed -/

/-- Destuffing undoes the escapes of the bytes after the first. -/
theorem destuffBytes_escapeBytes (s : List Byte) : destuffBytes (escapeBytes s) = .ok s := by
  induction s with
  | nil => rfl
  | cons b s ih => rw [escapeBytes_cons, destuffBytes_escapeByte, ih]; rfl

theorem length_escapeByte_pos (b : Byte) : 1 ≤ (escapeByte b).length := by
  obtain ⟨-, h⟩ | ⟨-, h⟩ | ⟨-, -, h⟩ := escapeByte_cases b <;> simp [h]

/-- No byte is sent as nothing, so escaping never shortens. -/
theorem length_le_length_escapeBytes (s : List Byte) : s.length ≤ (escapeBytes s).length := by
  induction s with
  | nil => exact le_rfl
  | cons b s ih =>
    have hb := length_escapeByte_pos b
    rw [escapeBytes_cons, List.length_append, List.length_cons]
    omega

/-- What DECODE reads of a stuffed frame: the bytes after the start marker, as they were before the stuffing. -/
theorem decodeFrame_of_stuffed {body : List Byte} (h : 3 ≤ body.length) :
    decodeFrame (fend :: escapeBytes body) = parseFrame body := by
  have hlen : ¬ (fend :: escapeBytes body).length < 4 := by
    have hbody := length_le_length_escapeBytes body
    rw [List.length_cons]
    omega
  rw [decodeFrame, if_neg hlen, if_neg (by simp), List.tail_cons, destuffBytes_escapeBytes]

/-! ### The fields of an encoded frame -/

/-- Bit 7 is clear in a byte of the 7-bit range, so a command in range is never taken for an address byte. -/
theorem and_addrFlag_of_le : ∀ b : Byte, b ≤ 0x7F → b &&& addrFlag = 0 := by decide

theorem or_addrFlag_and_addrFlag_ne_zero : ∀ b : Byte, (b ||| addrFlag) &&& addrFlag ≠ 0 := by decide

/-- Masking bit 7 off an address byte gives the address back. -/
theorem or_addrFlag_and_mask_of_le : ∀ b : Byte, b ≤ 0x7F → (b ||| addrFlag) &&& 0x7F = b := by decide

/-- The address step reads back what encode sent before a command byte in range. -/
theorem splitAddr_addrField {addr : Option Byte} {a : List Byte} (ha : addrField addr = .ok a) {cmd : Byte}
    (hc : cmd ≤ 0x7F) (rest : List Byte) : splitAddr (a ++ cmd :: rest) = (addr, cmd :: rest) := by
  obtain ⟨rfl, h⟩ | ⟨x, -, -, h⟩ | ⟨x, hx, rfl, h⟩ := addrField_cases addr <;> rw [h] at ha
  · obtain rfl := Except.ok.inj ha
    exact splitAddr_of_no_flag (and_addrFlag_of_le cmd hc) rest
  · cases ha
  · obtain rfl := Except.ok.inj ha
    rw [List.singleton_append, splitAddr_of_flag (or_addrFlag_and_addrFlag_ne_zero x),
      or_addrFlag_and_mask_of_le x hx]

/-- Everything encode can answer: a range error, or the start marker, the address bytes, a command in range and the data
field with their CRC byte, escaped after the start marker. -/
theorem encodePacket_cases (p : Packet) :
    encodePacket p = .error .addrRange ∨ encodePacket p = .error .cmdRange ∨
    ∃ a body, addrField p.addr = .ok a ∧ p.cmd ≤ 0x7F ∧ body = a ++ p.cmd :: dataField p.data ∧
      encodePacket p = .ok (fend :: escapeBytes (body ++ [crc8 (fend :: body)])) := by
  cases ha : addrField p.addr with
  | error k =>
    obtain rfl := addrField_error ha
    exact .inl (encodePacket_of_frameBody_error (frameBody_of_addrField_error ha))
  | ok a =>
    by_cases hc : p.cmd > 0x7F
    · exact .inr (.inl (encodePacket_of_frameBody_error (frameBody_of_cmd_range ha hc)))
    · have hc : p.cmd ≤ 0x7F := BitVec.not_lt.mp hc
      exact .inr (.inr ⟨a, _, rfl, hc, rfl, encodePacket_of_frameBody_ok (frameBody_of_in_range ha hc)⟩)

/-- `norm` keeps data that is not empty and delivers the rest as absent. -/
theorem Packet.norm_eq (p : Packet) :
    p.norm = { p with data := if p.data.getD [] = [] then none else some (p.data.getD []) } := by
  obtain ⟨addr, cmd, data⟩ := p
  obtain _ | _ | _ := data <;> simp [Packet.norm]

/-- The checks of steps 5 to 8 pass on a true length byte and a true CRC byte. -/
theorem checkFrame_of_true_fields {d : List Byte} (hd : d.length ≤ 255) (buf : List Byte) (addr : Option Byte)
    (cmd : Byte) :
    checkFrame (buf ++ [crc8 buf]) addr cmd (BitVec.ofNat 8 d.length) (d ++ [crc8 buf]) =
      .ok { addr := addr, cmd := cmd, data := if d = [] then none else some d } := by
  have hn : (BitVec.ofNat 8 d.length).toNat = d.length := by
    rw [BitVec.toNat_ofNat]; omega
  have hzero : BitVec.ofNat 8 d.length = 0 ↔ d = [] := by
    rw [← List.length_eq_zero_iff, ← hn]; bv_omega
  simp only [checkFrame, hn, hzero]
  simp

/-- The round trip: decode gives back every packet encode accepts, present and empty data becoming absent (R159). -/
theorem decodeFrame_of_encodePacket {p : Packet} {r : List Byte} (hd : (p.data.getD []).length ≤ 255)
    (h : encodePacket p = .ok r) : decodeFrame r = .ok p.norm := by
  obtain h' | h' | ⟨a, body, ha, hc, hbody, h'⟩ := encodePacket_cases p <;> rw [h'] at h
  · cases h
  · cases h
  · obtain rfl := Except.ok.inj h
    have hlen : 3 ≤ (body ++ [crc8 (fend :: body)]).length := by
      simp [hbody, dataField_eq_length_cons]; omega
    have hsplit : splitAddr (body ++ [crc8 (fend :: body)]) =
        (p.addr, p.cmd :: BitVec.ofNat 8 (p.data.getD []).length :: (p.data.getD [] ++ [crc8 (fend :: body)])) := by
      rw [hbody, List.append_assoc, List.cons_append, splitAddr_addrField ha hc, dataField_eq_length_cons]; rfl
    rw [decodeFrame_of_stuffed hlen, parseFrame, hsplit, Packet.norm_eq]
    exact checkFrame_of_true_fields hd (fend :: body) p.addr p.cmd

/-! ### The commands (R151, R153, R160) -/

theorem exec_encode_of_written {s : State} (h : s.pktWritten = true) :
    exec .encode s = .next (s.clearResults.finishBytes (encodePacket (pktPacket s.pkt))) :=
  withPkt_written runEncode h

theorem exec_decode_of_written {s : State} (h : s.inWritten = true) :
    exec .decode s = .next (s.clearResults.finishPacket (decodeFrame s.inReg)) :=
  withIn_written runDecode h

theorem encodePacket_congr {p q : Packet} (haddr : p.addr = q.addr) (hcmd : p.cmd = q.cmd)
    (hdata : dataField p.data = dataField q.data) : encodePacket p = encodePacket q := by
  simp only [encodePacket, frameBody, haddr, hcmd, hdata]

/-- Settles O27: both packets have the data field `[0]`, and the round trip delivers absent data. -/
theorem emptyDataEncodesAsAbsent : Obligations.EmptyDataEncodesAsAbsent := by
  intro s t hs ht haddrP haddr hcmd hdataP hdata hdataP'
  have hp : (pktPacket s.pkt).data = some [] := by simp [pktPacket, hdataP, hdata]
  have hq : (pktPacket t.pkt).data = none := by simp [pktPacket, hdataP']
  have hsame : encodePacket (pktPacket t.pkt) = encodePacket (pktPacket s.pkt) :=
    encodePacket_congr (by simp [pktPacket, haddrP, haddr]) hcmd (by rw [hp, hq]; rfl)
  refine ⟨_, _, exec_encode_of_written hs, exec_encode_of_written ht, ?_⟩
  rw [hsame]
  obtain henc | henc | ⟨a, body, -, -, -, henc⟩ := encodePacket_cases (pktPacket s.pkt)
  · rw [henc]; exact ⟨rfl, rfl, fun hok => absurd hok (show statusCode .addrRange ≠ 0x0 by decide)⟩
  · rw [henc]; exact ⟨rfl, rfl, fun hok => absurd hok (show statusCode .cmdRange ≠ 0x0 by decide)⟩
  · have hdec := decodeFrame_of_encodePacket (by simp [hp]) henc
    rw [henc]
    refine ⟨rfl, rfl, fun _ => ⟨_, exec_decode_of_written rfl, ?_⟩⟩
    simp [hdec, Packet.norm_eq, hp, packetRes, statusCode]

end Sys2Proof.Machine
end

section
/-!
PROOFS. The facts of `40_crc.md` section 3: the bit step as a shift and an exclusive or with 0x8C, the byte step as a
function of accumulator xor byte, and the residue.
-/

namespace Sys2Proof.Machine

theorem takenBranch_eq_shift_xor :
    ∀ acc : Byte, ((acc ^^^ 0x18) >>> 1) ||| (0x80 : Byte) = (acc >>> 1) ^^^ (0x8C : Byte) := by decide

theorem shiftRight_one_and_mask : ∀ acc : Byte, (acc >>> 1) &&& ~~~(0x80 : Byte) = acc >>> 1 := by decide

theorem crcBit_eq_shift_xor (acc b : Byte) :
    crcBit acc b = (acc >>> 1) ^^^ (if (b ^^^ acc) &&& 1 = 1 then 0x8C else 0) := by
  unfold crcBit
  split_ifs
  · exact takenBranch_eq_shift_xor acc
  · exact (shiftRight_one_and_mask acc).trans BitVec.xor_zero.symm

/-- A bit step commutes with moving the input into the accumulator: the input's other bits only shift along. -/
theorem crcBit_xor_shiftRight (acc b : Byte) : crcBit acc b ^^^ (b >>> 1) = crcBit (acc ^^^ b) 0 := by
  have hcond : (0 : Byte) ^^^ (acc ^^^ b) = b ^^^ acc := BitVec.zero_xor.trans (BitVec.xor_comm acc b)
  rw [crcBit_eq_shift_xor, crcBit_eq_shift_xor, hcond, BitVec.ushiftRight_xor_distrib]
  ac_rfl

/-- After `n` bit steps the accumulator is what accumulator xor byte alone would give, xor the bits still to come. -/
theorem crcBits_eq_crcBits_xor (n : Nat) (acc b : Byte) :
    crcBits n acc b = crcBits n (acc ^^^ b) 0 ^^^ (b >>> n) := by
  induction n generalizing acc b with
  | zero => simp
  | succ n ih =>
    calc crcBits (n + 1) acc b
        = crcBits n (crcBit acc b) (b >>> 1) := rfl
      _ = crcBits n (crcBit acc b ^^^ (b >>> 1)) 0 ^^^ (b >>> 1 >>> n) := ih _ _
      _ = crcBits (n + 1) (acc ^^^ b) 0 ^^^ (b >>> (n + 1)) := by
        rw [crcBit_xor_shiftRight, ← BitVec.shiftRight_add, Nat.add_comm 1 n]; rfl

theorem crcByte_eq_crcByte_zero_xor (acc x : Byte) : crcByte acc x = crcByte 0x00 (acc ^^^ x) := by
  have hgone (y : Byte) : y >>> 8 = 0 := BitVec.ushiftRight_eq_zero le_rfl
  have hxor (y : Byte) : (0x00 : Byte) ^^^ y = y := BitVec.zero_xor
  rw [crcByte, crcByte, crcBits_eq_crcBits_xor 8 acc, crcBits_eq_crcBits_xor 8 0x00, hxor, hgone, hgone]

/-- Settles O11, the second part by the bits still to come being none after eight steps. -/
theorem crcByteDependsOnXorOfItsInputs : Obligations.CrcByteDependsOnXorOfItsInputs :=
  ⟨takenBranch_eq_shift_xor, crcByte_eq_crcByte_zero_xor⟩

theorem crcByte_zero_eq_zero_iff : ∀ x : Byte, crcByte 0x00 x = 0x00 ↔ x = 0 := by decide

theorem crcByte_eq_zero_iff (acc x : Byte) : crcByte acc x = 0x00 ↔ x = acc := by
  rw [crcByte_eq_crcByte_zero_xor, crcByte_zero_eq_zero_iff]
  exact BitVec.xor_eq_zero_iff.trans eq_comm

/-- Settles O12: the last byte step gives 0 only on the accumulator itself. -/
theorem crcResidueZeroExactlyForTrueCrc : Obligations.CrcResidueZeroExactlyForTrueCrc := by
  intro s x
  rw [crc8_append_byte, crcByte_eq_zero_iff]

end Sys2Proof.Machine
end

section
/-!
PROOFS. The facts of `41_stuffing.md` section 3 and the leftmost bad escape of `60_exceptions.md` section 2: lengths and
shape of a stuffed sequence by the escape of each byte, and what a destuffed sequence is by the rounds that can succeed.
-/

namespace Sys2Proof.Machine

/-! ### What a stuffed sequence looks like -/

/-- A byte that is sent as a pair. -/
def needsEscape (x : Byte) : Bool := x == 0xC0 || x == 0xDB

theorem length_escapeByte (b : Byte) : (escapeByte b).length = 1 + if needsEscape b then 1 else 0 := by
  obtain ⟨rfl, h⟩ | ⟨rfl, h⟩ | ⟨hesc, hend, h⟩ := escapeByte_cases b <;> rw [h]
  · rfl
  · rfl
  · have : needsEscape b = false := by simpa [needsEscape] using ⟨hend, hesc⟩
    simp [this]

/-- Escaping adds one byte for each that is sent as a pair. -/
theorem length_escapeBytes (s : List Byte) : (escapeBytes s).length = s.length + s.countP needsEscape := by
  induction s with
  | nil => rfl
  | cons b s ih =>
    rw [escapeBytes_cons, List.length_append, length_escapeByte, ih, List.countP_cons, List.length_cons]
    omega

theorem length_escapeBytes_le (s : List Byte) : (escapeBytes s).length ≤ 2 * s.length := by
  have hcount := List.countP_le_length (p := needsEscape) (l := s)
  rw [length_escapeBytes]
  omega

/-- Settles O17: the first byte is copied, the others are escaped. -/
theorem stuffedLengthCountsEscapes : Obligations.StuffedLengthCountsEscapes := by
  intro b rest r h
  rw [stuffBytes_cons] at h
  obtain rfl := Except.ok.inj h
  have hlen : (escapeBytes rest).length = rest.length + rest.countP (fun x => x == 0xC0 || x == 0xDB) :=
    length_escapeBytes rest
  have hle := length_escapeBytes_le rest
  simp only [List.length_cons]
  omega

/-- No FEND, and TFEND or TFESC after every FESC, at whatever index. -/
def EscapedShape (r : List Byte) : Prop :=
  ∀ i : Nat, r[i]? ≠ some 0xC0 ∧ (r[i]? = some 0xDB → r[i + 1]? = some 0xDC ∨ r[i + 1]? = some 0xDD)

theorem EscapedShape.cons_plain {r : List Byte} (hr : EscapedShape r) {b : Byte} (hesc : b ≠ fesc)
    (hend : b ≠ fend) : EscapedShape (b :: r)
  | 0 => ⟨fun h => hend (Option.some.inj h), fun h => absurd (Option.some.inj h) hesc⟩
  | i + 1 => hr i

theorem EscapedShape.cons_pair {r : List Byte} (hr : EscapedShape r) {c : Byte} (hc : c = tfend ∨ c = tfesc) :
    EscapedShape (fesc :: c :: r)
  | 0 => ⟨fun h => absurd (Option.some.inj h) (by decide), fun _ => hc.imp (congrArg some) (congrArg some)⟩
  | i + 1 =>
    have hc' : c ≠ fesc ∧ c ≠ fend := by rcases hc with rfl | rfl <;> decide
    hr.cons_plain hc'.1 hc'.2 i

theorem escapedShape_escapeBytes (s : List Byte) : EscapedShape (escapeBytes s) := by
  induction s with
  | nil => intro i; simp
  | cons b s ih =>
    rw [escapeBytes_cons]
    obtain ⟨-, h⟩ | ⟨-, h⟩ | ⟨hesc, hend, h⟩ := escapeByte_cases b <;> rw [h]
    · exact ih.cons_pair (.inr rfl)
    · exact ih.cons_pair (.inl rfl)
    · exact ih.cons_plain hesc hend

/-- Settles O19: from index 1 on a stuffed sequence is the escape of the bytes after the first. -/
theorem stuffedShapeHasNoLaterFend : Obligations.StuffedShapeHasNoLaterFend := by
  intro s r h i hi
  cases s with
  | nil => cases h
  | cons b rest =>
    rw [stuffBytes_cons] at h
    obtain rfl := Except.ok.inj h
    obtain ⟨j, rfl⟩ := Nat.exists_eq_add_of_le' hi
    exact escapedShape_escapeBytes rest j

/-! ### What a destuffed sequence can be -/

/-- The induction along the scan's rounds: a byte to copy, an escape pair, or a FESC at the end. -/
theorem scan_induction {motive : List Byte → Prop} (nil : motive []) (truncated : motive [fesc])
    (plain : ∀ b s, b ≠ fesc → motive s → motive (b :: s)) (pair : ∀ c s, motive s → motive (fesc :: c :: s)) :
    ∀ s, motive s
  | [] => nil
  | [b] => if hb : b = fesc then hb ▸ truncated else plain b [] hb nil
  | b :: c :: s =>
    if hb : b = fesc then hb ▸ pair c s (scan_induction nil truncated plain pair s)
    else plain b (c :: s) hb (scan_induction nil truncated plain pair (c :: s))

theorem except_map_eq_ok {f : List Byte → List Byte} {x : Except Status (List Byte)} {r : List Byte}
    (h : x.map f = .ok r) : ∃ r', x = .ok r' ∧ r = f r' := by
  cases x with
  | error k => cases h
  | ok r' => exact ⟨r', rfl, (Except.ok.inj h).symm⟩

theorem except_map_eq_error {f : List Byte → List Byte} {x : Except Status (List Byte)} {k : Status}
    (h : x.map f = .error k) : x = .error k := by
  cases x with
  | error k' => exact congrArg _ (Except.error.inj h)
  | ok r' => cases h

/-- The induction over a scan that succeeds: every round copied a byte or took a valid pair. -/
theorem destuffBytes_ok_induction {motive : List Byte → List Byte → Prop} (nil : motive [] [])
    (plain : ∀ b s r, b ≠ fesc → motive s r → motive (b :: s) (b :: r))
    (pair : ∀ c e s r, unescapeByte c = .ok e → motive s r → motive (fesc :: c :: s) (e :: r))
    (s : List Byte) {r : List Byte} (h : destuffBytes s = .ok r) : motive s r := by
  induction s using scan_induction generalizing r with
  | nil => obtain rfl := Except.ok.inj h; exact nil
  | truncated => cases h
  | plain b s hb ih =>
    rw [destuffBytes_plain hb] at h
    obtain ⟨r, hs, rfl⟩ := except_map_eq_ok h
    exact plain b s r hb (ih hs)
  | pair c s ih =>
    cases hc : unescapeByte c with
    | error k => rw [destuffBytes_badPair hc] at h; cases h
    | ok e =>
      rw [destuffBytes_pair hc] at h
      obtain ⟨r, hs, rfl⟩ := except_map_eq_ok h
      exact pair c e s r hc (ih hs)

/-- Settles O18: each round reads one byte or two and puts out one. -/
theorem destuffedLengthBounds : Obligations.DestuffedLengthBounds := by
  intro s r h
  refine destuffBytes_ok_induction (motive := fun s r => r.length ≤ s.length ∧ s.length ≤ 2 * r.length)
    ⟨le_rfl, le_rfl⟩ (fun b s r _ ih => ?_) (fun c e s r _ ih => ?_) s h
  · simp only [List.length_cons]; omega
  · simp only [List.length_cons]; omega

/-- A beginning that destuffs puts its output in front of what the rest gives. -/
theorem destuffBytes_append {good r : List Byte} (h : destuffBytes good = .ok r) (s : List Byte) :
    destuffBytes (good ++ s) = (destuffBytes s).map (r ++ ·) := by
  refine destuffBytes_ok_induction
    (motive := fun good r => destuffBytes (good ++ s) = (destuffBytes s).map (r ++ ·))
    (id_map (destuffBytes s)).symm (fun b t r hb ih => ?_) (fun c e t r hc ih => ?_) good h
  · rw [List.cons_append, destuffBytes_plain hb, ih]
    cases destuffBytes s <;> rfl
  · rw [List.cons_append, List.cons_append, destuffBytes_pair hc, ih]
    cases destuffBytes s <;> rfl

/-- Settles O15: the good beginning passes, and the bad escape after it stops the scan. -/
theorem destufferReportsLeftmostBadEscape : Obligations.DestufferReportsLeftmostBadEscape := by
  refine fun good r hgood => ⟨fun c rest hesc hend => ?_, ?_⟩
  · rw [destuffBytes_append hgood]
    exact congrArg (Except.map (r ++ ·)) (destuffBytes_badPair (unescapeByte_other hesc hend) rest)
  · rw [destuffBytes_append hgood]
    rfl

/-- An escape pair is valid or the DESTUFF error. -/
theorem unescapeByte_error {c : Byte} {k : Status} (h : unescapeByte c = .error k) : k = .destuff := by
  unfold unescapeByte at h
  split_ifs at h
  exact (Except.error.inj h).symm

/-- The two errors of the scan. -/
theorem destuffBytes_error (s : List Byte) {k : Status} (h : destuffBytes s = .error k) :
    k = .destuff ∨ k = .wrongLen := by
  induction s using scan_induction with
  | nil => cases h
  | truncated => exact .inr (Except.error.inj h).symm
  | plain b s hb ih =>
    rw [destuffBytes_plain hb] at h
    exact ih (except_map_eq_error h)
  | pair c s ih =>
    cases hc : unescapeByte c with
    | error k' =>
      rw [destuffBytes_badPair hc] at h
      obtain rfl := Except.error.inj h
      exact .inl (unescapeByte_error hc)
    | ok e =>
      rw [destuffBytes_pair hc] at h
      exact ih (except_map_eq_error h)

end Sys2Proof.Machine
end

section
/-!
PROOFS. What a command writes (`30_encoding.md` R73, `60_exceptions.md` R202): once its operand is written it leaves the
four result registers that its operand alone decides, and nothing else.
-/

namespace Sys2Proof.Machine

/-! ### The four result registers as one value -/

/-- What a command leaves in the result registers (R26 to R29). -/
structure Results where
  status : BitVec 4
  crcOut : Byte
  out    : List Byte
  res    : ResReg

/-- A failure's status over cleared results (R202). -/
def Results.failed (k : Status) : Results := ⟨statusCode k, 0x00, [], ResReg.zero⟩

/-- What STUFF, DESTUFF and ENCODE leave. -/
def Results.ofBytes : Except Status (List Byte) → Results
  | .ok r => ⟨0x0, 0x00, r, ResReg.zero⟩
  | .error k => .failed k

/-- What DECODE leaves. -/
def Results.ofPacket : Except Status Packet → Results
  | .ok p => ⟨0x0, 0x00, p.data.getD [], packetRes p⟩
  | .error k => .failed k

/-- What each command computes from IN or PKT. -/
def commandResults : Instr → List Byte → PktReg → Results
  | .crc8, bytes, _ => ⟨0x0, crc8 bytes, [], ResReg.zero⟩
  | .stuff, bytes, _ => .ofBytes (stuffBytes bytes)
  | .destuff, bytes, _ => .ofBytes (destuffBytes bytes)
  | .encode, _, q => .ofBytes (encodePacket (pktPacket q))
  | .decode, bytes, _ => .ofPacket (decodeFrame bytes)

/-- Write all four result registers. -/
def State.setResults (s : State) (r : Results) : State :=
  { s with status := r.status, crcOut := r.crcOut, out := r.out, res := r.res }

section Fields

variable (s : State) (r : Results)

@[simp] theorem State.setResults_inReg : (s.setResults r).inReg = s.inReg := rfl
@[simp] theorem State.setResults_inWritten : (s.setResults r).inWritten = s.inWritten := rfl
@[simp] theorem State.setResults_pkt : (s.setResults r).pkt = s.pkt := rfl
@[simp] theorem State.setResults_pktWritten : (s.setResults r).pktWritten = s.pktWritten := rfl
@[simp] theorem State.setResults_status : (s.setResults r).status = r.status := rfl
@[simp] theorem State.setResults_crcOut : (s.setResults r).crcOut = r.crcOut := rfl
@[simp] theorem State.setResults_out : (s.setResults r).out = r.out := rfl
@[simp] theorem State.setResults_res : (s.setResults r).res = r.res := rfl
@[simp] theorem State.setResults_faulted : (s.setResults r).faulted = s.faulted := rfl
@[simp] theorem State.setResults_refused : (s.setResults r).refused = s.refused := rfl
@[simp] theorem State.setResults_pending : (s.setResults r).pending = s.pending := rfl
@[simp] theorem State.setResults_reads : (s.setResults r).reads = s.reads := rfl

end Fields

theorem State.badOp_eq_setResults (s : State) : s.badOp = s.setResults (.failed .badOp) := rfl

theorem finishBytes_clearResults (s : State) (x : Except Status (List Byte)) :
    s.clearResults.finishBytes x = s.setResults (.ofBytes x) := by
  cases x <;> rfl

theorem finishPacket_clearResults (s : State) (x : Except Status Packet) :
    s.clearResults.finishPacket x = s.setResults (.ofPacket x) := by
  cases x <;> rfl

/-! ### The two paths of a command -/

theorem exec_of_unwritten {i : Instr} {s : State} (h : operandWritten i s = false) :
    exec i s = .next (s.markFault .unwrittenOperand) := by
  cases i with
  | crc8 => exact withIn_unwritten runCrc8 h
  | stuff => exact withIn_unwritten runStuff h
  | destuff => exact withIn_unwritten runDestuff h
  | encode => exact withPkt_unwritten runEncode h
  | decode => exact withIn_unwritten runDecode h

theorem exec_of_written {i : Instr} {s : State} (h : operandWritten i s = true) :
    exec i s = .next (s.setResults (commandResults i s.inReg s.pkt)) := by
  cases i with
  | crc8 => exact withIn_written runCrc8 h
  | stuff => exact (withIn_written runStuff h).trans (congrArg _ (finishBytes_clearResults s _))
  | destuff => exact (withIn_written runDestuff h).trans (congrArg _ (finishBytes_clearResults s _))
  | encode => exact (exec_encode_of_written h).trans (congrArg _ (finishBytes_clearResults s _))
  | decode => exact (exec_decode_of_written h).trans (congrArg _ (finishPacket_clearResults s _))

/-- Everything a command can answer. -/
theorem exec_cases {i : Instr} {s t : State} (h : exec i s = .next t) :
    (operandWritten i s = false ∧ t = s.markFault .unwrittenOperand) ∨
    (operandWritten i s = true ∧ t = s.setResults (commandResults i s.inReg s.pkt)) := by
  cases hw : operandWritten i s with
  | false => rw [exec_of_unwritten hw] at h; exact .inl ⟨rfl, (Host.Outcome.next.inj h).symm⟩
  | true => rw [exec_of_written hw] at h; exact .inr ⟨rfl, (Host.Outcome.next.inj h).symm⟩

theorem eq_setResults_of_exec {i : Instr} {s t : State} (hw : operandWritten i s = true) (h : exec i s = .next t) :
    t = s.setResults (commandResults i s.inReg s.pkt) := by
  rw [exec_of_written hw] at h
  exact (Host.Outcome.next.inj h).symm

theorem operandWritten_congr {s t : State} (i : Instr) (hin : t.inWritten = s.inWritten)
    (hpkt : t.pktWritten = s.pktWritten) : operandWritten i t = operandWritten i s := by
  cases i <;> assumption

/-! ### The frame and the results' source -/

/-- Settles O36. -/
theorem unwrittenOperandSetsFaultMarkOnly : Obligations.UnwrittenOperandSetsFaultMarkOnly :=
  fun _ _ => exec_of_unwritten

/-- Settles O37: a command writes the fault mark or the result registers, none of the fields named. -/
theorem commandsLeaveOperandsUnchanged : Obligations.CommandsLeaveOperandsUnchanged := by
  intro i s t h
  obtain ⟨hw, rfl⟩ | ⟨-, rfl⟩ := exec_cases h
  · exact ⟨rfl, rfl, rfl, rfl, rfl, rfl, rfl, fun hw' => (by rw [hw] at hw'; cases hw'), fun _ => rfl, fun _ => rfl⟩
  · exact ⟨rfl, rfl, rfl, rfl, rfl, rfl, rfl, fun _ => rfl, fun _ => rfl, fun _ => rfl⟩

/-- Settles O40: with both operands written the results are `commandResults` of equal operands. -/
theorem resultsDependOnOperandsAlone : Obligations.ResultsDependOnOperandsAlone := by
  intro i s t u v hin hpkt hs ht hu hv
  obtain rfl := eq_setResults_of_exec hs hu
  obtain rfl := eq_setResults_of_exec ht hv
  rw [hin, hpkt]
  exact ⟨rfl, rfl, rfl, rfl⟩

/-- Settles O41: the first issue changes neither the operand nor whether it is written. -/
theorem repeatedCommandChangesNothing : Obligations.RepeatedCommandChangesNothing := by
  intro i s t h
  obtain ⟨hw, rfl⟩ | ⟨hw, rfl⟩ := exec_cases h
  · exact exec_of_unwritten ((operandWritten_congr i rfl rfl).trans hw)
  · exact exec_of_written ((operandWritten_congr i rfl rfl).trans hw)

/-! ### Which results each command leaves -/

@[simp] theorem Results.ofBytes_crcOut (x : Except Status (List Byte)) : (Results.ofBytes x).crcOut = 0x00 := by
  cases x <;> rfl

@[simp] theorem Results.ofBytes_res (x : Except Status (List Byte)) : (Results.ofBytes x).res = ResReg.zero := by
  cases x <;> rfl

@[simp] theorem Results.ofPacket_crcOut (x : Except Status Packet) : (Results.ofPacket x).crcOut = 0x00 := by
  cases x <;> rfl

/-- A status other than OK comes with nothing else. -/
def Results.FailedEmpty (r : Results) : Prop := r.status ≠ 0x0 → r.crcOut = 0x00 ∧ r.out = [] ∧ r.res = ResReg.zero

theorem Results.failed_failedEmpty (k : Status) : (Results.failed k).FailedEmpty := fun _ => ⟨rfl, rfl, rfl⟩

theorem Results.ofBytes_failedEmpty (x : Except Status (List Byte)) : (Results.ofBytes x).FailedEmpty := by
  cases x with
  | ok r => exact fun h => absurd rfl h
  | error k => exact failed_failedEmpty k

theorem Results.ofPacket_failedEmpty (x : Except Status Packet) : (Results.ofPacket x).FailedEmpty := by
  cases x with
  | ok p => exact fun h => absurd rfl h
  | error k => exact failed_failedEmpty k

theorem commandResults_failedEmpty (i : Instr) (bytes : List Byte) (q : PktReg) :
    (commandResults i bytes q).FailedEmpty := by
  cases i with
  | crc8 => exact fun h => absurd rfl h
  | stuff => exact Results.ofBytes_failedEmpty _
  | destuff => exact Results.ofBytes_failedEmpty _
  | encode => exact Results.ofBytes_failedEmpty _
  | decode => exact Results.ofPacket_failedEmpty _

theorem commandResults_crcOut_of_ne {i : Instr} (h : i ≠ .crc8) (bytes : List Byte) (q : PktReg) :
    (commandResults i bytes q).crcOut = 0x00 := by
  cases i with
  | crc8 => exact absurd rfl h
  | stuff => exact Results.ofBytes_crcOut _
  | destuff => exact Results.ofBytes_crcOut _
  | encode => exact Results.ofBytes_crcOut _
  | decode => exact Results.ofPacket_crcOut _

theorem commandResults_res_of_ne {i : Instr} (h : i ≠ .decode) (bytes : List Byte) (q : PktReg) :
    (commandResults i bytes q).res = ResReg.zero := by
  cases i with
  | crc8 => rfl
  | stuff => exact Results.ofBytes_res _
  | destuff => exact Results.ofBytes_res _
  | encode => exact Results.ofBytes_res _
  | decode => exact absurd rfl h

theorem memRead_outBuf_of_out_nil {s : State} (h : s.out = []) (a : Nat) : s.memRead .outBuf a = none := by
  rw [State.memRead, storeBytes_outBuf, h]
  rfl

/-- Settles O38. -/
theorem commandsLeaveOnlyTheirOwnResults : Obligations.CommandsLeaveOnlyTheirOwnResults := by
  intro i s t hw h
  obtain rfl := eq_setResults_of_exec hw h
  refine ⟨fun hi => commandResults_crcOut_of_ne hi _ _, fun hi => commandResults_res_of_ne hi _ _,
    fun hi => memRead_outBuf_of_out_nil (by subst hi; rfl), fun hfail => ?_⟩
  obtain ⟨hcrc, hout, hres⟩ := commandResults_failedEmpty i s.inReg s.pkt hfail
  exact ⟨hcrc, hres, memRead_outBuf_of_out_nil hout⟩

/-! ### CRC8, STUFF and DESTUFF (R103, R121, R123) -/

/-- Settles O28. -/
theorem crc8CompletesWithChecksum : Obligations.Crc8CompletesWithChecksum := by
  intro s h
  rw [exec_of_written (i := .crc8) h, ← crc8_eq_crcLoop]
  rfl

theorem exec_stuff_of_written {s : State} (h : s.inWritten = true) :
    exec .stuff s = .next (s.setResults (.ofBytes (stuffBytes s.inReg))) :=
  exec_of_written (i := .stuff) h

theorem exec_destuff_of_written {s : State} (h : s.inWritten = true) :
    exec .destuff s = .next (s.setResults (.ofBytes (destuffBytes s.inReg))) :=
  exec_of_written (i := .destuff) h

theorem escapeBytes_eq_flatMap (s : List Byte) : escapeBytes s = s.flatMap escapeByte := by
  induction s with
  | nil => rfl
  | cons b s ih => rw [escapeBytes_cons, ih, List.flatMap_cons]

/-- Settles O29, by whether there is a first byte. -/
theorem stuffCompletesWithEscapedBytes : Obligations.StuffCompletesWithEscapedBytes := by
  refine ⟨fun s b rest hw hin => ?_, fun s hw hin => ?_⟩
  · have hstuff : stuffBytes s.inReg = .ok (b :: rest.flatMap escapeByte) := by
      rw [hin, stuffBytes_cons, escapeBytes_eq_flatMap]
    rw [exec_stuff_of_written hw, hstuff]
    rfl
  · have hstuff : stuffBytes s.inReg = .error .empty := by rw [hin]; rfl
    rw [exec_stuff_of_written hw, hstuff]
    rfl

/-- Settles O30, by the outcome of the scan. -/
theorem destuffCompletesWithScan : Obligations.DestuffCompletesWithScan := by
  refine fun s hw => ⟨fun r h => ?_, fun k h => ?_⟩
  · rw [exec_destuff_of_written hw, destufferIsIndexedScan, h]
    rfl
  · refine ⟨?_, destuffBytes_error s.inReg ((destufferIsIndexedScan s.inReg).trans h)⟩
    rw [exec_destuff_of_written hw, destufferIsIndexedScan, h]
    rfl

/-- Settles O16: STUFF copies a first byte that destuffs to itself, and DESTUFF undoes the escapes of the rest. -/
theorem stuffThenDestuffGivesInputBack : Obligations.StuffThenDestuffGivesInputBack := by
  intro s b rest hw hin hb
  have hback : destuffBytes (b :: escapeBytes rest) = .ok (b :: rest) := by
    rw [destuffBytes_plain hb, destuffBytes_escapeBytes]
    rfl
  have hstuff := exec_stuff_of_written hw
  rw [hin, stuffBytes_cons] at hstuff
  refine ⟨_, _, hstuff, rfl, exec_destuff_of_written rfl, ?_⟩
  simp only [State.setIn_inReg, State.setResults_out, State.setResults_status, Results.ofBytes, hback, and_self]

end Sys2Proof.Machine
end

section
/-!
PROOFS. ENCODE (`42_framer.md` section 1): its frame for every packet in range, its range errors, and the length of what
it sends (section 4).
-/

namespace Sys2Proof.Machine

open Sys2Proof.Reference

/-! ### The packet in PKT (R24, R151) -/

theorem pktPacket_packetPkt (p : Packet) : pktPacket (packetPkt p) = p := by
  obtain ⟨_ | a, c, _ | d⟩ := p <;> rfl

theorem addrField_pktPacket {q : PktReg} (h : q.addrP = true → q.addr ≤ 0x7F) :
    addrField (pktPacket q).addr = .ok (if q.addrP then [q.addr ||| 0x80] else []) := by
  cases hp : q.addrP with
  | false => simp [pktPacket, hp]
  | true => simpa [pktPacket, hp, addrFlag] using addrField_some (h hp)

theorem addrField_pktPacket_range {q : PktReg} (hp : q.addrP = true) (h : q.addr > 0x7F) :
    addrField (pktPacket q).addr = .error .addrRange := by
  simpa [pktPacket, hp] using addrField_range h

theorem dataField_pktPacket (q : PktReg) :
    dataField (pktPacket q).data = if q.dataP then BitVec.ofNat 8 q.data.length :: q.data else [0x00] := by
  cases hp : q.dataP <;> simp [pktPacket, hp, dataField]

theorem length_pktPacket_data_le (q : PktReg) : ((pktPacket q).data.getD []).length ≤ q.data.length := by
  cases hp : q.dataP <;> simp [pktPacket, hp]

/-- The frame of PKT's fields without its CRC byte (R150). -/
def pktFrame (q : PktReg) : List Byte :=
  [0xC0] ++ (if q.addrP then [q.addr ||| 0x80] else []) ++ [q.cmd] ++
    (if q.dataP then BitVec.ofNat 8 q.data.length :: q.data else [0x00])

theorem frameBody_pktPacket {q : PktReg} (haddr : q.addrP = true → q.addr ≤ 0x7F) (hcmd : q.cmd ≤ 0x7F) :
    frameBody (pktPacket q) = .ok (pktFrame q) := by
  rw [frameBody_of_in_range (addrField_pktPacket haddr) hcmd, dataField_pktPacket]
  simp [pktFrame, pktPacket, fend]

/-! ### Completion and range errors (R150, R151, R204) -/

theorem exec_encode_of_ok {s : State} {r : List Byte} (hw : s.pktWritten = true)
    (h : encodePacket (pktPacket s.pkt) = .ok r) :
    exec .encode s = .next (s.setResults ⟨0x0, 0x00, r, ResReg.zero⟩) :=
  (exec_of_written (i := .encode) hw).trans (by rw [commandResults, h]; rfl)

theorem exec_encode_of_error {s : State} {k : Status} (hw : s.pktWritten = true)
    (h : encodePacket (pktPacket s.pkt) = .error k) : exec .encode s = .next (s.setResults (.failed k)) :=
  (exec_of_written (i := .encode) hw).trans (by rw [commandResults, h]; rfl)

/-- The frame is never empty, so the stuffer accepts it. -/
theorem encodePacket_of_frame {p : Packet} {buf : List Byte} (h : frameBody p = .ok buf) :
    ∃ body, buf = fend :: body ∧ encodePacket p = .ok (fend :: escapeBytes (body ++ [crc8 buf])) := by
  obtain ⟨body, rfl⟩ := frameBody_head h
  exact ⟨body, rfl, encodePacket_of_frameBody_ok h⟩

/-- Settles O31. -/
theorem encodeCompletesWithFrame : Obligations.EncodeCompletesWithFrame := by
  rintro s q hw rfl haddr hcmd -
  have hbody := frameBody_pktPacket haddr hcmd
  obtain ⟨body, -, henc⟩ := encodePacket_of_frame hbody
  refine ⟨_, ?_, exec_encode_of_ok hw henc⟩
  calc stuffLoop (pktFrame s.pkt ++ [crcLoop (pktFrame s.pkt)])
      = stuffBytes (pktFrame s.pkt ++ [crc8 (pktFrame s.pkt)]) := by rw [← stufferIsIndexedLoop, ← crc8_eq_crcLoop]
    _ = encodePacket (pktPacket s.pkt) := (encodePacket_of_frameBody_ok hbody).symm
    _ = _ := henc

/-- Settles O32: the command is looked at only when the address has passed. -/
theorem encodeRangeErrorsAddressFirst : Obligations.EncodeRangeErrorsAddressFirst := by
  rintro s q hw rfl
  refine ⟨fun hp haddr => ?_, fun haddr hcmd => ?_⟩
  · have hrange := addrField_pktPacket_range hp haddr
    exact exec_encode_of_error hw (encodePacket_of_frameBody_error (frameBody_of_addrField_error hrange))
  · have hin : s.pkt.addrP = true → s.pkt.addr ≤ 0x7F := fun hp => BitVec.not_lt.mp fun hlt => haddr ⟨hp, hlt⟩
    have hrange := frameBody_of_cmd_range (addrField_pktPacket hin) hcmd
    exact exec_encode_of_error hw (encodePacket_of_frameBody_error hrange)

/-- Every packet of R159's kind has its frame. -/
theorem frameBody_of_encodable {p : Packet} (h : p.encodable) :
    ∃ a, addrField p.addr = .ok a ∧ frameBody p = .ok (fend :: (a ++ p.cmd :: dataField p.data)) := by
  obtain ⟨haddr, hcmd, -⟩ := h
  obtain ⟨-, ha⟩ | ⟨x, hx, hsome, -⟩ | ⟨x, -, -, ha⟩ := addrField_cases p.addr
  · exact ⟨_, ha, frameBody_of_in_range ha hcmd⟩
  · exact absurd hx (BitVec.not_lt.mpr (haddr x hsome))
  · exact ⟨_, ha, frameBody_of_in_range ha hcmd⟩

/-! ### The length of the result (`42_framer.md` section 4) -/

theorem length_addrField {addr : Option Byte} {a : List Byte} (h : addrField addr = .ok a) :
    a.length = if addr.isSome then 1 else 0 := by
  obtain ⟨rfl, h'⟩ | ⟨_, -, -, h'⟩ | ⟨_, -, rfl, h'⟩ := addrField_cases addr <;> rw [h'] at h
  · obtain rfl := Except.ok.inj h
    rfl
  · cases h
  · obtain rfl := Except.ok.inj h
    rfl

theorem length_addrField_le {addr : Option Byte} {a : List Byte} (h : addrField addr = .ok a) : a.length ≤ 1 := by
  rw [length_addrField h]
  split <;> decide

theorem needsEscape_of_le : ∀ b : Byte, b ≤ 0x7F → needsEscape b = false := by decide

/-- The length byte FF of the longest data is sent as itself. -/
theorem countP_lengthByte_add_le {n : Nat} (h : n ≤ 255) : [BitVec.ofNat 8 n].countP needsEscape + n ≤ 255 := by
  have hone := List.countP_le_length (p := needsEscape) (l := [BitVec.ofNat 8 n])
  obtain rfl | hlt := Nat.eq_or_lt_of_le h
  · decide
  · rw [List.length_singleton] at hone
    omega

/-- Of the bytes after the start marker the command byte is never escaped, and the length byte only below its top. -/
theorem countP_frame_le {addr : Option Byte} {a d : List Byte} {cmd x : Byte} (ha : addrField addr = .ok a)
    (hc : cmd ≤ 0x7F) (hd : d.length ≤ 255) :
    (a ++ cmd :: BitVec.ofNat 8 d.length :: d ++ [x]).countP needsEscape ≤ 257 := by
  have hacount := List.countP_le_length (p := needsEscape) (l := a)
  have halen := length_addrField_le ha
  have hdcount := List.countP_le_length (p := needsEscape) (l := d)
  have hncount := countP_lengthByte_add_le hd
  have hxcount := List.countP_le_length (p := needsEscape) (l := [x])
  have hsplit : a ++ cmd :: BitVec.ofNat 8 d.length :: d ++ [x] =
      a ++ ([cmd] ++ ([BitVec.ofNat 8 d.length] ++ (d ++ [x]))) := by simp
  have hcmd : [cmd].countP needsEscape = 0 := by simp [needsEscape_of_le cmd hc]
  rw [List.length_singleton] at hxcount
  rw [hsplit]
  simp only [List.countP_append]
  omega

/-- What ENCODE sends is at most 517 bytes long, whatever packet it accepts. -/
theorem length_encodePacket_le {p : Packet} {r : List Byte} (hd : (p.data.getD []).length ≤ 255)
    (h : encodePacket p = .ok r) : r.length ≤ 517 := by
  obtain h' | h' | ⟨a, body, ha, hc, hbody, h'⟩ := encodePacket_cases p <;> rw [h'] at h
  · cases h
  · cases h
  · obtain rfl := Except.ok.inj h
    have hcount := countP_frame_le (x := crc8 (fend :: body)) ha hc hd
    have halen := length_addrField_le ha
    rw [← dataField_eq_length_cons, ← hbody] at hcount
    rw [List.length_cons, length_escapeBytes]
    have hlen : body.length = a.length + 2 + (p.data.getD []).length := by
      simp [hbody, dataField_eq_length_cons]; omega
    rw [List.length_append, List.length_singleton]
    omega

/-- Settles O22. -/
theorem encodedLengthIsFrameAndEscapes : Obligations.EncodedLengthIsFrameAndEscapes := by
  intro p hp
  obtain ⟨a, ha, hbody⟩ := frameBody_of_encodable hp
  obtain ⟨body, hbuf, henc⟩ := encodePacket_of_frame hbody
  obtain ⟨-, -, hd⟩ := hp
  have hlen : body.length = 2 + (if p.addr.isSome then 1 else 0) + (p.data.getD []).length := by
    rw [← length_addrField ha, ← (List.cons.inj hbuf).2]
    simp [dataField_eq_length_cons]; omega
  have hlong := length_le_length_escapeBytes (body ++ [crc8 (fend :: body)])
  rw [hbuf] at hbody henc
  rw [List.length_append, List.length_singleton] at hlong
  refine ⟨_, _, hbody, henc, ?_, ?_, ?_, length_encodePacket_le hd henc⟩
  · rw [List.length_cons, hlen]; omega
  · rw [List.length_cons, length_escapeBytes, List.length_append, List.length_singleton]
    exact Nat.add_right_comm _ _ _
  · rw [List.length_cons]; omega

/-- Settles O47: the invariant bounds PKT's data, so the result is at most 517 bytes long. -/
theorem encodeResultAlwaysFitsInput : Obligations.EncodeResultAlwaysFitsInput := by
  intro s t hinv hw h hok
  obtain ⟨-, hdata, -⟩ := hinv.stores
  have hd := (length_pktPacket_data_le s.pkt).trans hdata
  obtain rfl := eq_setResults_of_exec (i := .encode) hw h
  have hfits : (Results.ofBytes (encodePacket (pktPacket s.pkt))).out.length ≤ 517 := by
    cases henc : encodePacket (pktPacket s.pkt) with
    | error k => exact Nat.zero_le _
    | ok r => exact length_encodePacket_le hd henc
  exact congrArg _ (writeIn_fits (le_inCap hfits))

/-! ### The round trip (R159) -/

theorem exec_decode_of_ok {s : State} {p : Packet} (hw : s.inWritten = true) (h : decodeFrame s.inReg = .ok p) :
    exec .decode s = .next (s.setResults ⟨0x0, 0x00, p.data.getD [], packetRes p⟩) :=
  (exec_of_written (i := .decode) hw).trans (by rw [commandResults, h]; rfl)

theorem exec_decode_of_error {s : State} {k : Status} (hw : s.inWritten = true)
    (h : decodeFrame s.inReg = .error k) : exec .decode s = .next (s.setResults (.failed k)) :=
  (exec_of_written (i := .decode) hw).trans (by rw [commandResults, h]; rfl)

theorem Packet.norm_data_getD (p : Packet) : p.norm.data.getD [] = p.data.getD [] := by
  rw [Packet.norm_eq]
  split_ifs with h
  · exact h.symm
  · rfl

/-- Settles O25: PKT stands for the packet, ENCODE accepts it, and DECODE of the result gives it back. -/
theorem decodeOfEncodeGivesPacketBack : Obligations.DecodeOfEncodeGivesPacketBack := by
  intro s p hp hw hpkt
  obtain ⟨a, -, hbody⟩ := frameBody_of_encodable hp
  obtain ⟨body, -, henc⟩ := encodePacket_of_frame hbody
  obtain ⟨-, -, hd⟩ := hp
  have hpacket : pktPacket s.pkt = p := by rw [hpkt, pktPacket_packetPkt]
  exact ⟨_, _, exec_encode_of_ok hw (hpacket ▸ henc), rfl, le_inCap (length_encodePacket_le hd henc),
    exec_decode_of_ok rfl (decodeFrame_of_encodePacket hd henc), rfl, rfl, p.norm_data_getD⟩

end Sys2Proof.Machine
end

section
/-!
PROOFS. DECODE (`42_framer.md` sections 2 to 4): the order of its checks, what each frame that passes them delivers, and
the flipped CRC bit.
-/

namespace Sys2Proof.Machine

open Sys2Proof.Reference

/-! ### The checks before the fields (R152, R203) -/

section Checks

variable {raw : List Byte}

theorem decodeFrame_of_short (h : raw.length < 4) : decodeFrame raw = .error .tooShort := if_pos h

theorem decodeFrame_of_no_start (hlen : 4 ≤ raw.length) (h : raw.head? ≠ some fend) :
    decodeFrame raw = .error .noStart :=
  (if_neg (Nat.not_lt.mpr hlen)).trans (if_pos h)

/-- Past the length floor and the start marker, the remainder is destuffed. -/
theorem decodeFrame_of_start (hlen : 4 ≤ raw.length) (h : raw.head? = some fend) :
    decodeFrame raw = (destuffBytes raw.tail).bind parseFrame := by
  rw [decodeFrame, if_neg (Nat.not_lt.mpr hlen), if_neg (not_not.mpr h)]
  cases destuffBytes raw.tail <;> rfl

/-- Everything decode can meet, up to the destuffed remainder. -/
theorem decodeFrame_cases (raw : List Byte) :
    decodeFrame raw = .error .tooShort ∨ decodeFrame raw = .error .noStart ∨
    (∃ k, destuffBytes raw.tail = .error k ∧ decodeFrame raw = .error k) ∨
    ∃ rest body, 4 ≤ raw.length ∧ raw = fend :: rest ∧ destuffBytes rest = .ok body ∧
      decodeFrame raw = parseFrame body := by
  by_cases hlen : raw.length < 4
  · exact .inl (decodeFrame_of_short hlen)
  by_cases hstart : raw.head? = some fend
  · have hdec := decodeFrame_of_start (Nat.not_lt.mp hlen) hstart
    cases hd : destuffBytes raw.tail with
    | error k => rw [hd] at hdec; exact .inr (.inr (.inl ⟨k, rfl, hdec⟩))
    | ok body =>
      rw [hd] at hdec
      exact .inr (.inr (.inr ⟨_, body, Nat.not_lt.mp hlen, List.eq_cons_of_mem_head? hstart, hd, hdec⟩))
  · exact .inr (.inl (decodeFrame_of_no_start (Nat.not_lt.mp hlen) hstart))

end Checks

/-! ### The fields (R152, R154) -/

/-- How many address bytes stand before the command byte. -/
def addrSize (body : List Byte) : Nat := if (body.getD 0 0).getLsbD 7 then 1 else 0

/-- The length byte. -/
def lengthByte (body : List Byte) : Byte := body.getD (addrSize body + 1) 0

/-- What steps 4 to 8 deliver when every check passes. -/
def framePacket (body : List Byte) : Packet where
  addr := if (body.getD 0 0).getLsbD 7 then some (body.getD 0 0 &&& 0x7F) else none
  cmd := body.getD (addrSize body) 0
  data := if (lengthByte body).toNat = 0 then none
    else some ((body.drop (addrSize body + 2)).take (lengthByte body).toNat)

theorem getLsbD_seven_iff : ∀ b : Byte, b.getLsbD 7 = true ↔ b &&& addrFlag ≠ 0 := by decide

theorem at'_cons_length {body : List Byte} (h : body ≠ []) (b : Byte) :
    at' (b :: body) body.length = body.getLastD 0 := by
  cases body with
  | nil => exact absurd rfl h
  | cons c s => simp [at', List.getLastD_eq_getLast?, List.getLast?_eq_getElem?]

/-- The length tests of steps 5 and 6 come to one, whether a frame has the length its length byte says (R154). -/
theorem decodeRest_eq_checks (body : List Byte) (addr : Option Byte) (k : Nat) :
    decodeRest (fend :: body) addr (k + 1) =
      if body.length ≠ k + 3 + (body.getD (k + 1) 0).toNat then .error .wrongLen
      else if crc8 (fend :: body.dropLast) ≠ body.getLastD 0 then .error .wrongCrc
      else .ok {
        addr := addr, cmd := body.getD k 0
        data := if (body.getD (k + 1) 0).toNat = 0 then none
          else some ((body.drop (k + 2)).take (body.getD (k + 1) 0).toNat) } := by
  have hn : at' (fend :: body) (k + 1 + 1) = body.getD (k + 1) 0 := rfl
  have hcmd : at' (fend :: body) (k + 1) = body.getD k 0 := rfl
  have hdrop : (fend :: body).drop (k + 1 + 2) = body.drop (k + 2) := rfl
  rw [decodeRest, hn, hcmd, hdrop, List.length_cons, Nat.add_sub_cancel]
  generalize (body.getD (k + 1) 0).toNat = n
  by_cases hlen : body.length = k + 3 + n
  · have hne : body ≠ [] := List.ne_nil_of_length_pos (by omega)
    have htake : (fend :: body).take body.length = fend :: body.dropLast := by
      rw [← List.dropLast_cons_of_ne_nil hne, List.dropLast_eq_take]
      rfl
    have hcount : ¬ body.length + 1 - (k + 1 + 2) - 1 ≠ n := not_not.mpr (by omega)
    rw [if_neg (by omega), if_neg (by omega), if_neg (not_not.mpr hlen), ← htake, crc8_eq_crcLoop,
      ← at'_cons_length hne fend]
    exact (if_neg (by omega)).trans (if_neg hcount)
  · have hcount : ¬ body.length + 1 < k + 1 + 2 + 1 → body.length + 1 - (k + 1 + 2) - 1 ≠ n := by omega
    rw [if_pos hlen]
    split_ifs with _ _ hshort
    any_goals rfl
    all_goals exact if_pos (hcount hshort)

theorem parseFrame_eq_checks (body : List Byte) :
    parseFrame body =
      if body.length ≠ addrSize body + 3 + (lengthByte body).toNat then .error .wrongLen
      else if crc8 (fend :: body.dropLast) ≠ body.getLastD 0 then .error .wrongCrc
      else .ok (framePacket body) := by
  cases body with
  | nil => rfl
  | cons b rest =>
    have hfirst : at' (fend :: b :: rest) 1 = b := rfl
    have hlong : ¬ 1 ≥ (fend :: b :: rest).length := by simp
    rw [parseFrame_eq_indexed, hfirst, if_neg hlong]
    by_cases hflag : b.getLsbD 7 = true
    · have hsize : addrSize (b :: rest) = 1 := if_pos hflag
      have haddr : (framePacket (b :: rest)).addr = some (b &&& 0x7F) := if_pos hflag
      rw [if_pos ((getLsbD_seven_iff b).mp hflag), decodeRest_eq_checks _ _ 1, ← haddr]
      simp only [framePacket, lengthByte, hsize]
    · have hsize : addrSize (b :: rest) = 0 := if_neg hflag
      have haddr : (framePacket (b :: rest)).addr = none := if_neg hflag
      rw [if_neg (fun h => hflag ((getLsbD_seven_iff b).mpr h)), decodeRest_eq_checks _ _ 0, ← haddr]
      simp only [framePacket, lengthByte, hsize]

/-- A frame is delivered exactly when its length and its CRC byte are true; the residue tells the latter (R104). -/
theorem parseFrame_eq_ok_iff {body : List Byte} {p : Packet} :
    parseFrame body = .ok p ↔
      body.length = addrSize body + 3 + (lengthByte body).toNat ∧ crc8 (fend :: body) = 0x00 ∧
        framePacket body = p := by
  by_cases hlen : body.length = addrSize body + 3 + (lengthByte body).toNat
  · have hne : body ≠ [] := List.ne_nil_of_length_pos (by omega)
    have hresidue : crc8 (fend :: body) = 0x00 ↔ crc8 (fend :: body.dropLast) = body.getLastD 0 := by
      have hbody : fend :: body = fend :: body.dropLast ++ [body.getLastD 0] := by
        rw [List.cons_append, List.getLastD_eq_getLast?, List.getLast?_eq_some_getLast hne, Option.getD_some,
          List.dropLast_append_getLast hne]
      rw [hbody, crcResidueZeroExactlyForTrueCrc, eq_comm]
    rw [parseFrame_eq_checks, if_neg (not_not.mpr hlen), hresidue]
    by_cases hcrc : crc8 (fend :: body.dropLast) = body.getLastD 0
    · rw [if_neg (not_not.mpr hcrc)]
      exact ⟨fun h => ⟨hlen, hcrc, Except.ok.inj h⟩, fun ⟨_, _, h⟩ => congrArg _ h⟩
    · rw [if_pos hcrc]
      exact ⟨fun h => (by cases h), fun ⟨_, h, _⟩ => absurd h hcrc⟩
  · rw [parseFrame_eq_checks, if_pos hlen]
    exact ⟨fun h => (by cases h), fun ⟨h, _⟩ => absurd h hlen⟩

theorem parseFrame_error {body : List Byte} {k : Status} (h : parseFrame body = .error k) :
    k = .wrongLen ∨ k = .wrongCrc := by
  rw [parseFrame_eq_checks] at h
  split_ifs at h
  · exact .inl (Except.error.inj h).symm
  · exact .inr (Except.error.inj h).symm

theorem decodeFrame_eq_ok_iff {raw : List Byte} {p : Packet} :
    decodeFrame raw = .ok p ↔
      4 ≤ raw.length ∧
        ∃ rest body, raw = fend :: rest ∧ destuffBytes rest = .ok body ∧ parseFrame body = .ok p := by
  constructor
  · intro h
    obtain h' | h' | ⟨k, -, h'⟩ | ⟨rest, body, hlen, hraw, hd, h'⟩ := decodeFrame_cases raw <;> rw [h'] at h
    · cases h
    · cases h
    · cases h
    · exact ⟨hlen, rest, body, hraw, hd, h⟩
  · rintro ⟨hlen, rest, body, rfl, hd, h⟩
    rw [decodeFrame_of_start hlen rfl, List.tail_cons, hd]
    exact h

/-- Settles O23. -/
theorem decodeAcceptsExactlyValidFrames : Obligations.DecodeAcceptsExactlyValidFrames := by
  intro raw
  simp only [decodeFrame_eq_ok_iff, parseFrame_eq_ok_iff]
  constructor
  · rintro ⟨p, hlen, rest, body, hraw, hd, hbody, hcrc, -⟩
    exact ⟨hlen, rest, body, hraw, hd, hbody, hcrc⟩
  · rintro ⟨hlen, rest, body, hraw, hd, hbody, hcrc⟩
    exact ⟨_, hlen, rest, body, hraw, hd, hbody, hcrc, rfl⟩

/-- Settles O24, check by check. -/
theorem decodeReportsFirstFailedCheck : Obligations.DecodeReportsFirstFailedCheck := by
  refine fun raw => ⟨decodeFrame_of_short, decodeFrame_of_no_start, fun hlen hstart e hd => ?_,
    fun hlen hstart body hd => ?_⟩
  · rw [decodeFrame_of_start hlen hstart, hd]
    rfl
  · have hdec : decodeFrame raw = parseFrame body := by
      rw [decodeFrame_of_start hlen hstart, hd]
      rfl
    rw [hdec, parseFrame_eq_checks]
    exact ⟨fun hbody => if_pos hbody, fun hbody hcrc => (if_neg (not_not.mpr hbody)).trans (if_pos hcrc)⟩

/-- The errors of DECODE. -/
theorem decodeFrame_error {raw : List Byte} {k : Status} (h : decodeFrame raw = .error k) :
    k = .tooShort ∨ k = .noStart ∨ k = .destuff ∨ k = .wrongLen ∨ k = .wrongCrc := by
  obtain h' | h' | ⟨k', hd, h'⟩ | ⟨rest, body, -, -, -, h'⟩ := decodeFrame_cases raw <;> rw [h'] at h
  · exact .inl (Except.error.inj h).symm
  · exact .inr (.inl (Except.error.inj h).symm)
  · obtain rfl := Except.error.inj h
    obtain hk | hk := destuffBytes_error _ hd
    · exact .inr (.inr (.inl hk))
    · exact .inr (.inr (.inr (.inl hk)))
  · exact .inr (.inr (.inr (parseFrame_error h)))

/-! ### What each frame delivers (R153) -/

/-- Settles O35. -/
theorem failedDecodeWritesOnlyStatus : Obligations.FailedDecodeWritesOnlyStatus := by
  intro s k hw h
  rw [← decoderIsIndexedPipeline] at h
  exact ⟨exec_decode_of_error hw h, decodeFrame_error h⟩

/-- The fields of a frame with a true length byte and a true CRC byte, wherever its address step leaves off. -/
theorem parseFrame_of_true_fields {body d : List Byte} {addr : Option Byte} {c : Byte} (hd : d.length ≤ 255)
    (h : splitAddr (body ++ [crc8 (fend :: body)]) =
      (addr, c :: BitVec.ofNat 8 d.length :: (d ++ [crc8 (fend :: body)]))) :
    parseFrame (body ++ [crc8 (fend :: body)]) =
      .ok { addr := addr, cmd := c, data := if d = [] then none else some d } := by
  rw [parseFrame, h]
  exact checkFrame_of_true_fields hd (fend :: body) addr c

/-- DECODE of a true frame, given what its address step finds (R153). -/
theorem exec_decode_of_true_fields {s : State} {rest body d : List Byte} {addr : Option Byte} {c : Byte}
    (hw : s.inWritten = true) (hin : s.inReg = fend :: rest) (hlen : 3 ≤ rest.length) (hd : d.length ≤ 255)
    (hdestuff : destuffBytes rest = .ok (body ++ [crc8 (fend :: body)]))
    (h : splitAddr (body ++ [crc8 (fend :: body)]) =
      (addr, c :: BitVec.ofNat 8 d.length :: (d ++ [crc8 (fend :: body)]))) :
    exec .decode s = .next (s.setResults
      ⟨0x0, 0x00, d, ⟨addr.isSome, (addr.getD 0).setWidth 7, c, decide (d ≠ [])⟩⟩) := by
  have hdec : decodeFrame s.inReg = .ok { addr := addr, cmd := c, data := if d = [] then none else some d } :=
    decodeFrame_eq_ok_iff.mpr
      ⟨by rw [hin]; exact Nat.succ_le_succ hlen, rest, _, hin, hdestuff, parseFrame_of_true_fields hd h⟩
  rw [exec_decode_of_ok hw hdec]
  by_cases hnil : d = [] <;> simp [packetRes, hnil]

theorem setWidth_seven_and_mask : ∀ a : Byte, (a &&& 0x7F).setWidth 7 = a.setWidth 7 := by decide

/-- Settles O33. -/
theorem decodeCompletesWithAddress : Obligations.DecodeCompletesWithAddress := by
  intro s rest a c d hw hin hlen hflag hd hdestuff
  have hsplit := splitAddr_of_flag ((getLsbD_seven_iff a).mp hflag) (c :: BitVec.ofNat 8 d.length :: (d ++
    [crc8 (fend :: a :: c :: BitVec.ofNat 8 d.length :: d)]))
  rw [exec_decode_of_true_fields hw hin hlen hd hdestuff hsplit, Option.getD_some, setWidth_seven_and_mask]
  rfl

/-- Settles O34. -/
theorem decodeCompletesWithoutAddress : Obligations.DecodeCompletesWithoutAddress := by
  intro s rest c d hw hin hlen hflag hd hdestuff
  have hclear : c &&& addrFlag = 0 := by
    by_contra h
    rw [(getLsbD_seven_iff c).mpr h] at hflag
    cases hflag
  exact exec_decode_of_true_fields hw hin hlen hd hdestuff (splitAddr_of_no_flag hclear _)

/-! ### The flipped CRC bit (R161) -/

/-- A true length byte with a false CRC byte. -/
theorem checkFrame_of_false_crc {d buf : List Byte} {x : Byte} (hd : d.length ≤ 255) (hx : x ≠ crc8 buf)
    (addr : Option Byte) (cmd : Byte) :
    checkFrame (buf ++ [x]) addr cmd (BitVec.ofNat 8 d.length) (d ++ [x]) = .error .wrongCrc := by
  have hn : (BitVec.ofNat 8 d.length).toNat = d.length := by
    rw [BitVec.toNat_ofNat]; omega
  simp [checkFrame, hn, hx.symm]

theorem one_shiftLeft_ne_zero : ∀ j < 8, (1 : Byte) <<< j ≠ 0 := by decide

theorem xor_flip_ne (x : Byte) {j : Nat} (hj : j < 8) : x ^^^ ((1 : Byte) <<< j) ≠ x := fun h =>
  one_shiftLeft_ne_zero j hj ((BitVec.xor_right_inj x).mp (h.trans BitVec.xor_zero.symm))

/-- The error a false CRC byte sent as itself causes: it opens an escape when it is FESC, and fails the check
otherwise. -/
theorem decodeFrame_of_false_crc {p : Packet} {a body : List Byte} {x : Byte} (hd : (p.data.getD []).length ≤ 255)
    (ha : addrField p.addr = .ok a) (hc : p.cmd ≤ 0x7F) (hbody : body = a ++ p.cmd :: dataField p.data)
    (hx : x ≠ crc8 (fend :: body)) :
    decodeFrame (fend :: (escapeBytes body ++ [x])) = .error (if x = fesc then .wrongLen else .wrongCrc) := by
  have hlen : 4 ≤ (fend :: (escapeBytes body ++ [x])).length := by
    have hescape := length_le_length_escapeBytes body
    have hlong : 2 ≤ body.length := by simp [hbody, dataField_eq_length_cons]; omega
    simp; omega
  rw [decodeFrame_of_start hlen rfl, List.tail_cons, destuffBytes_append (destuffBytes_escapeBytes body)]
  by_cases hesc : x = fesc
  · rw [if_pos hesc, hesc]
    rfl
  · have hsplit : splitAddr (body ++ [x]) =
        (p.addr, p.cmd :: BitVec.ofNat 8 (p.data.getD []).length :: (p.data.getD [] ++ [x])) := by
      rw [hbody, List.append_assoc, List.cons_append, splitAddr_addrField ha hc, dataField_eq_length_cons]; rfl
    have hparse : parseFrame (body ++ [x]) = .error .wrongCrc := by
      rw [parseFrame, hsplit]
      exact checkFrame_of_false_crc (buf := fend :: body) hd hx p.addr p.cmd
    rw [if_neg hesc, destuffBytes_plain hesc]
    exact hparse

/-- Settles O26: a CRC byte sent as itself is the last one, and the flipped one is false. -/
theorem flippedCrcBitMakesDecodeFail : Obligations.FlippedCrcBitMakesDecodeFail := by
  intro s p f r j hp hf hr hend hesc hj hw hin
  obtain ⟨a, ha, hbody⟩ := frameBody_of_encodable hp
  obtain ⟨-, hc, hd⟩ := hp
  obtain rfl := Except.ok.inj (hbody.symm.trans hf)
  obtain ⟨body, hbuf, henc⟩ := encodePacket_of_frame hf
  obtain rfl := Except.ok.inj (henc.symm.trans hr)
  obtain rfl := (List.cons.inj hbuf).2
  set body := a ++ p.cmd :: dataField p.data with hfields
  set crc := crc8 (fend :: body)
  have hplain : escapeBytes (body ++ [crc]) = escapeBytes body ++ [crc] := by
    rw [escapeBytes_append, escapeBytes_cons, escapeByte_plain hesc hend]; rfl
  have hraw : s.inReg = fend :: (escapeBytes body ++ [crc ^^^ ((1 : Byte) <<< j)]) := by
    rw [hin, hplain, ← List.cons_append, List.dropLast_concat]; rfl
  have hdec := decodeFrame_of_false_crc hd ha hc hfields (xor_flip_ne crc hj)
  have hstatus := apply_ite statusCode (crc ^^^ ((1 : Byte) <<< j) = fesc) .wrongLen .wrongCrc
  refine ⟨?_, (exec_decode_of_error hw (hraw ▸ hdec)).trans ?_⟩
  · rw [hplain, ← List.cons_append, List.getLast?_concat]
  · exact congrArg (fun code => Host.Outcome.next (s.setResults ⟨code, 0x00, [], ResReg.zero⟩)) hstatus

end Sys2Proof.Machine
end

section
/-!
PROOFS. The command word (`30_encoding.md` section 1) and the status codes (R83): which words select which operation, what
the reserved ones do, and which statuses each command answers.
-/

namespace Sys2Proof.Machine

/-! ### Words and operations (R70 to R73) -/

/-- Settles O1. -/
theorem opcodeMapOfFiveWords : Obligations.OpcodeMapOfFiveWords := ⟨rfl, rfl, rfl, rfl, rfl⟩

theorem decodeWord_encodeWord (i : Instr) : decodeWord (encodeWord i) = .ok i := by
  cases i <;> rfl

/-- With `RSV` zero a word is its `OP`. -/
theorem eq_opField_of_rsvField : ∀ w : Byte, rsvField w = 0 → w = opField w := by decide

/-- A word selects an operation only when it is that operation's word. -/
theorem encodeWord_of_decodeWord {w : Byte} {i : Instr} (h : decodeWord w = .ok i) : encodeWord i = w := by
  unfold decodeWord at h
  split_ifs at h with hrsv hop hop hop hop hop
  all_goals
    obtain rfl := Except.ok.inj h
    exact ((eq_opField_of_rsvField w hrsv).trans hop).symm

/-- Settles O3. -/
theorem decodeEncodeAgree : Obligations.DecodeEncodeAgree :=
  ⟨fun i _ => decodeWord_encodeWord i, fun _ _ => encodeWord_of_decodeWord⟩

theorem encodeWord_legal (i : Instr) : encodeWord i >>> 3 = 0 ∧ encodeWord i &&& 0x07 ≤ 4 := by
  cases i <;> decide

theorem eq_of_legal :
    ∀ w : Byte, w >>> 3 = 0 → w &&& 0x07 ≤ 4 → w = 0 ∨ w = 1 ∨ w = 2 ∨ w = 3 ∨ w = 4 := by decide

/-- Settles O2: the legal words are the five of R71. -/
theorem wordLegalExactlyWhenReservedBitsZero : Obligations.WordLegalExactlyWhenReservedBitsZero := by
  refine fun w => ⟨fun ⟨i, h⟩ => encodeWord_of_decodeWord h ▸ encodeWord_legal i, fun ⟨hrsv, hop⟩ => ?_⟩
  obtain rfl | rfl | rfl | rfl | rfl := eq_of_legal w hrsv hop
  · exact ⟨.crc8, rfl⟩
  · exact ⟨.stuff, rfl⟩
  · exact ⟨.destuff, rfl⟩
  · exact ⟨.encode, rfl⟩
  · exact ⟨.decode, rfl⟩

/-- Settles O4: a reserved word is no legal one, so it selects nothing. -/
theorem reservedWordGivesBadOp : Obligations.ReservedWordGivesBadOp := by
  intro w s hreserved
  obtain ⟨-, h⟩ | ⟨i, hi, -⟩ := command_cases w s
  · exact h
  · obtain ⟨hrsv, hop⟩ := (wordLegalExactlyWhenReservedBitsZero w).mp ⟨i, hi⟩
    obtain h | h | h | h := hreserved
    · exact absurd hrsv h
    all_goals rw [h] at hop; exact absurd hop (by decide)

/-! ### Statuses (R83) -/

/-- The kind a code belongs to; the reserved codes stand with NONE. -/
def kindOfCode (c : BitVec 4) : Status :=
  match c.toNat with
  | 0 => .ok
  | 1 => .tooShort
  | 2 => .noStart
  | 3 => .destuff
  | 4 => .wrongLen
  | 5 => .wrongCrc
  | 6 => .addrRange
  | 7 => .cmdRange
  | 8 => .empty
  | 9 => .badOp
  | _ => .none

theorem kindOfCode_statusCode : Function.LeftInverse kindOfCode statusCode := by
  intro k
  cases k <;> rfl

theorem statusCode_not_reserved (k : Status) : statusCode k ≤ 0x9 ∨ statusCode k = 0xF := by
  cases k <;> decide

/-- Settles O5: a code determines its kind. -/
theorem statusCodesOfKinds : Obligations.StatusCodesOfKinds := by
  refine ⟨rfl, rfl, rfl, rfl, rfl, rfl, rfl, rfl, rfl, rfl, rfl,
    fun _ _ h => kindOfCode_statusCode.injective h, fun k ⟨hlow, hhigh⟩ => ?_⟩
  obtain h | h := statusCode_not_reserved k
  · exact absurd (BitVec.le_trans hlow h) (by decide)
  · rw [h] at hhigh
    exact absurd hhigh (by decide)

/-- Settles O39, each command from the errors of its function. -/
theorem statusCausesPerCommand : Obligations.StatusCausesPerCommand := by
  refine fun s t => ⟨fun hw h => ?_, fun hw h => ?_, fun hw h => ?_, fun hw h => ?_, fun hw h => ?_⟩
  · rw [eq_setResults_of_exec (i := .crc8) hw h]
    rfl
  · rw [eq_setResults_of_exec (i := .stuff) hw h, State.setResults_status, commandResults]
    cases s.inReg with
    | nil => exact .inr ⟨rfl, rfl⟩
    | cons b rest => exact .inl rfl
  · rw [eq_setResults_of_exec (i := .destuff) hw h, State.setResults_status, commandResults]
    cases hd : destuffBytes s.inReg with
    | ok r => exact .inl rfl
    | error k =>
      obtain rfl | rfl := destuffBytes_error _ hd
      · exact .inr (.inl rfl)
      · exact .inr (.inr rfl)
  · rw [eq_setResults_of_exec (i := .encode) hw h, State.setResults_status, commandResults]
    obtain henc | henc | ⟨a, body, -, -, -, henc⟩ := encodePacket_cases (pktPacket s.pkt) <;> rw [henc]
    · exact .inr (.inl rfl)
    · exact .inr (.inr rfl)
    · exact .inl rfl
  · rw [eq_setResults_of_exec (i := .decode) hw h, State.setResults_status, commandResults]
    cases hd : decodeFrame s.inReg with
    | ok p => exact show (0x0 : BitVec 4) ≤ 0x5 by decide
    | error k =>
      show statusCode k ≤ 0x5
      obtain rfl | rfl | rfl | rfl | rfl := decodeFrame_error hd <;> decide

end Sys2Proof.Machine
end

section
/-!
PROOFS. The host's actions and the steps (`20_memory.md` section 1, `30_encoding.md` section 5, `60_exceptions.md` section
3): what each action does, that every line takes its step, and which steps write a result register.
-/

namespace Sys2Proof.Machine

/-! ### Reset (R230, R231) -/

/-- Settles O6. -/
theorem resetActionSetsResetValues : Obligations.ResetActionSetsResetValues := fun _ => rfl

/-- Settles O7. -/
theorem startStateHoldsResetValues : Obligations.StartStateHoldsResetValues :=
  ⟨rfl, rfl, rfl, rfl, rfl, rfl, rfl, rfl, rfl, rfl, rfl, rfl⟩

/-! ### Writes (R23, R24, R56) -/

theorem writeIn_overlong {s : State} {bytes : List Byte} (h : Config.inCap < bytes.length) :
    writeIn bytes s = s.markRefused .overCap := if_neg (Nat.not_le.mpr h)

theorem writePkt_overlong {s : State} {p : Packet} (h : Config.dataMax < (p.data.getD []).length) :
    writePkt p s = s.markRefused .overCap := if_neg (Nat.not_le.mpr h)

/-- Settles O42. -/
theorem wrinSetsInOnly : Obligations.WrinSetsInOnly :=
  fun s _ h => ⟨_, congrArg Host.Outcome.next (writeIn_fits (s := s) h), rfl, fun _ => rfl⟩

/-- Settles O43, by which fields the packet has. -/
theorem wrpktSetsPktOnly : Obligations.WrpktSetsPktOnly := by
  intro s a c d h
  refine congrArg Host.Outcome.next ((writePkt_fits (p := ⟨a, c, d⟩) h).trans ?_)
  cases a <;> cases d <;> rfl

theorem wellFormed_iff_data_fits (p : Packet) : p.wellFormed = true ↔ (p.data.getD []).length ≤ Config.dataMax := by
  obtain ⟨_, _, _ | d⟩ := p
  · exact iff_of_true rfl (Nat.zero_le _)
  · exact decide_eq_true_iff

/-- Settles O44: both writes go by whether their operand fits. -/
theorem overlongWritesAreRefused : Obligations.OverlongWritesAreRefused := by
  refine ⟨fun s bytes h => congrArg _ (writeIn_overlong h), fun s p h => congrArg _ (writePkt_overlong h), ?_⟩
  rintro s t _ hs (⟨bytes, rfl⟩ | ⟨p, rfl⟩) h <;> obtain rfl := Host.Outcome.next.inj h
  · by_cases hfits : bytes.length ≤ Config.inCap
    · rw [writeIn_fits hfits]
      exact iff_of_true hs (decide_eq_true hfits)
    · rw [writeIn_overlong (Nat.not_le.mp hfits)]
      exact iff_of_false nofun fun hwf => hfits (of_decide_eq_true hwf)
  · by_cases hfits : (p.data.getD []).length ≤ Config.dataMax
    · rw [writePkt_fits hfits]
      exact iff_of_true hs ((wellFormed_iff_data_fits p).mpr hfits)
    · rw [writePkt_overlong (Nat.not_le.mp hfits)]
      exact iff_of_false nofun fun hwf => hfits ((wellFormed_iff_data_fits p).mp hwf)

/-! ### Reads and refused accesses (R25, R31, R55, R57) -/

theorem readOutByte_of_some {s : State} {i : Nat} {b : Byte} (h : s.out[i]? = some b) :
    readOutByte i s = s.logRead (.num b.toNat) := by
  have hread : s.memRead .outBuf i = some b := h
  simp only [readOutByte, hread]

theorem readOutByte_past_len {s : State} {i : Nat} (h : s.out.length ≤ i) :
    readOutByte i s = s.markRefused .readPastLen := by
  have hread : s.memRead .outBuf i = none := List.getElem?_eq_none h
  simp only [readOutByte, hread]

theorem toNat_eq_ite (b : Bool) : b.toNat = if b then 1 else 0 := by
  cases b <;> rfl

/-- Settles O45. -/
theorem readsReturnFieldsAndChangeNothing : Obligations.ReadsReturnFieldsAndChangeNothing := by
  refine fun s => ⟨rfl, rfl, rfl, ?_, rfl, rfl, ?_, rfl, fun i b h => congrArg _ (readOutByte_of_some h)⟩
  · rw [← toNat_eq_ite]; rfl
  · rw [← toNat_eq_ite]; rfl

/-- Settles O46. -/
theorem forbiddenAccessesAreRefused : Obligations.ForbiddenAccessesAreRefused :=
  fun _ => ⟨fun _ h => congrArg _ (readOutByte_past_len h), fun _ _ => rfl, fun _ _ => rfl, rfl⟩

/-- Everything a host action can do: an operand write that fits, a read, a refusal, RESET or a command. -/
theorem perform_cases {a : Action} {s t : State} (h : perform a s = .next t) :
    (∃ bytes, bytes.length ≤ Config.inCap ∧ t = s.setIn bytes) ∨
    (∃ p : Packet, (p.data.getD []).length ≤ Config.dataMax ∧ t = s.setPkt (packetPkt p)) ∨
    (∃ v, t = s.logRead v) ∨ (∃ r, t = s.markRefused r) ∨ (a = .reset ∧ t = s.resetRegisters) ∨
    ∃ w, a = .cmdw w ∧ command w s = .next t := by
  cases a with
  | cmdw w => exact .inr (.inr (.inr (.inr (.inr ⟨w, rfl, h⟩))))
  | wrin bytes =>
    obtain rfl := Host.Outcome.next.inj h
    by_cases hfits : bytes.length ≤ Config.inCap
    · exact .inl ⟨bytes, hfits, writeIn_fits hfits⟩
    · exact .inr (.inr (.inr (.inl ⟨_, writeIn_overlong (Nat.not_le.mp hfits)⟩)))
  | wrpkt p =>
    obtain rfl := Host.Outcome.next.inj h
    by_cases hfits : (p.data.getD []).length ≤ Config.dataMax
    · exact .inr (.inl ⟨p, hfits, writePkt_fits hfits⟩)
    · exact .inr (.inr (.inr (.inl ⟨_, writePkt_overlong (Nat.not_le.mp hfits)⟩)))
  | rdOutByte i =>
    obtain rfl := Host.Outcome.next.inj h
    cases hread : s.out[i]? with
    | some b => exact .inr (.inr (.inl ⟨_, readOutByte_of_some hread⟩))
    | none => exact .inr (.inr (.inr (.inl ⟨_, readOutByte_past_len (List.getElem?_eq_none_iff.mp hread)⟩)))
  | rd f => exact .inr (.inr (.inl ⟨_, (Host.Outcome.next.inj h).symm⟩))
  | rdOut => exact .inr (.inr (.inl ⟨_, (Host.Outcome.next.inj h).symm⟩))
  | rdCmd => exact .inr (.inr (.inr (.inl ⟨_, (Host.Outcome.next.inj h).symm⟩)))
  | wrResult f v => exact .inr (.inr (.inr (.inl ⟨_, (Host.Outcome.next.inj h).symm⟩)))
  | wrOutByte i v => exact .inr (.inr (.inr (.inl ⟨_, (Host.Outcome.next.inj h).symm⟩)))
  | reset => exact .inr (.inr (.inr (.inr (.inl ⟨rfl, (Host.Outcome.next.inj h).symm⟩))))

/-! ### Steps (R20, R84, R85, R206) -/

/-- Settles O50, FAULTED being looked at first. -/
theorem markedStateTakesNoStep : Obligations.MarkedStateTakesNoStep :=
  ⟨fun s f h => by simp [step, guardMarks, h], fun s r hf hr => by simp [step, guardMarks, hf, hr]⟩

/-- An unmarked state performs its next line. -/
theorem step_of_pending {s : State} {l : Line} {rest : List Line} (hs : s.unmarked) (h : s.pending = l :: rest) :
    step s = perform (expandLine s l).1 (s.setPending ((expandLine s l).2 ++ rest)) :=
  (guardMarks_unmarked hs _).trans (nextAction_cons h)

theorem command_encodeWord (i : Instr) (s : State) : command (encodeWord i) s = exec i s :=
  command_ok (decodeWord_encodeWord i) s

/-- Settles O48. -/
theorem stepRunsDecodedInstruction : Obligations.StepRunsDecodedInstruction :=
  fun _ _ _ _ hf hr hp hw _ => (step_of_pending ⟨hf, hr⟩ hp).trans (command_ok hw _)

/-- Settles O49, line by line. -/
theorem linesExpandAsWritten : Obligations.LinesExpandAsWritten := by
  intro s rest hf hr
  have hstep {l : Line} := step_of_pending (s := s) (l := l) (rest := rest) ⟨hf, hr⟩
  exact ⟨fun _ hp => hstep hp, fun _ hp => hstep hp, fun i hp => (hstep hp).trans (command_encodeWord i _),
    fun _ hp => hstep hp, fun _ hp => hstep hp, fun hp => hstep hp⟩

theorem exec_next (i : Instr) (s : State) : ∃ t, exec i s = .next t := by
  cases hw : operandWritten i s with
  | false => exact ⟨_, exec_of_unwritten hw⟩
  | true => exact ⟨_, exec_of_written hw⟩

theorem command_next (w : Byte) (s : State) : ∃ t, command w s = .next t := by
  obtain ⟨-, h⟩ | ⟨i, -, h⟩ := command_cases w s
  · exact ⟨_, h⟩
  · exact h ▸ exec_next i s

theorem perform_next (a : Action) (s : State) : ∃ t, perform a s = .next t := by
  cases a with
  | cmdw w => exact command_next w s
  | wrin bytes => exact ⟨_, rfl⟩
  | wrpkt p => exact ⟨_, rfl⟩
  | rd f => exact ⟨_, rfl⟩
  | rdOutByte i => exact ⟨_, rfl⟩
  | rdOut => exact ⟨_, rfl⟩
  | rdCmd => exact ⟨_, rfl⟩
  | wrResult f v => exact ⟨_, rfl⟩
  | wrOutByte i v => exact ⟨_, rfl⟩
  | reset => exact ⟨_, rfl⟩

/-- Settles O51: every action, hence every line, answers a next state. -/
theorem unmarkedStateAlwaysSteps : Obligations.UnmarkedStateAlwaysSteps := by
  have hidle (s : State) (hs : s.unmarked) (hp : s.pending = []) : step s = .next s :=
    (guardMarks_unmarked hs _).trans (nextAction_nil hp)
  refine ⟨fun s hf hr => ?_, fun s hf hr => hidle s ⟨hf, hr⟩⟩
  cases hp : s.pending with
  | nil => exact ⟨s, hidle s ⟨hf, hr⟩ hp⟩
  | cons l rest => exact step_of_pending ⟨hf, hr⟩ hp ▸ perform_next _ _

/-- An action that is neither a command nor RESET writes no result register. -/
theorem perform_keeps_results {a : Action} {s t : State} (h : perform a s = .next t) (hcmd : ∀ w, a ≠ .cmdw w)
    (hreset : a ≠ .reset) : t.status = s.status ∧ t.crcOut = s.crcOut ∧ t.out = s.out ∧ t.res = s.res := by
  obtain ⟨_, -, rfl⟩ | ⟨_, -, rfl⟩ | ⟨_, rfl⟩ | ⟨_, rfl⟩ | ⟨ha, -⟩ | ⟨w, ha, -⟩ := perform_cases h
  · exact ⟨rfl, rfl, rfl, rfl⟩
  · exact ⟨rfl, rfl, rfl, rfl⟩
  · exact ⟨rfl, rfl, rfl, rfl⟩
  · exact ⟨rfl, rfl, rfl, rfl⟩
  · exact absurd ha hreset
  · exact absurd ha (hcmd w)

/-- Settles O54, by the action each line performs. -/
theorem onlyCommandsAndResetWriteResults : Obligations.OnlyCommandsAndResetWriteResults := by
  intro s t h hcmd hop hreset
  obtain ⟨-, ⟨-, rfl⟩ | ⟨l, rest, hp, h⟩⟩ := step_cases h
  · exact ⟨rfl, rfl, rfl, rfl⟩
  · have hkeep := perform_keeps_results h
    cases l with
    | act a => exact hkeep (fun w ha => hcmd w rest (ha ▸ hp)) (fun ha => hreset rest (ha ▸ hp))
    | op i => exact absurd hp (hop i rest)
    | loop => exact hkeep (fun _ ha => by cases ha) (fun ha => by cases ha)
    | send p => exact hkeep (fun _ ha => by cases ha) (fun ha => by cases ha)
    | recv bytes => exact hkeep (fun _ ha => by cases ha) (fun ha => by cases ha)

end Sys2Proof.Machine
end

section
/-!
PROOFS. The invariant (`10_state.md` sections 3 to 6, `60_exceptions.md` section 1): it holds at reset, every result a
command can leave is consistent, and every action keeps it.
-/

namespace Sys2Proof.Machine

/-- Settles O52. -/
theorem invariantHoldsAtReset : Obligations.InvariantHoldsAtReset where
  stores := reset_wf
  unwrittenIn := fun _ => rfl
  unwrittenPkt := fun _ => rfl
  pktAbsentAddr := fun _ => rfl
  pktAbsentData := fun _ => rfl
  statusCodes := .inr rfl
  failedEmpty := fun _ => ⟨rfl, rfl, rfl⟩
  crcAlone := fun _ => ⟨rfl, rfl⟩
  resAbsentAddr := fun _ => ⟨rfl, BitVec.not_lt.mp (by decide)⟩
  resData := fun h => (by cases h)
  resNoData := fun h => absurd rfl h
  oneMark := .inl rfl

/-! ### What a command can leave -/

/-- The clauses of `State.Inv` that speak of the result registers. -/
structure Results.Consistent (r : Results) : Prop where
  fits : r.out.length ≤ Config.outCap
  statusCodes : r.status ≤ 0x9 ∨ r.status = 0xF
  failedEmpty : r.FailedEmpty
  crcAlone : r.crcOut ≠ 0x00 → r.out = [] ∧ r.res = ResReg.zero
  resAbsentAddr : r.res.addrP = false → r.res.addr = 0 ∧ r.res.cmd ≤ 0x7F
  resData : r.res.dataP = true → 1 ≤ r.out.length ∧ r.out.length ≤ 255
  resNoData : r.res ≠ ResReg.zero → r.res.dataP = false → r.out = []

/-- Results without a decoded packet: a byte sequence that fits or a checksum, and neither after a failure. -/
theorem Results.consistent_of_res_zero {r : Results} (hres : r.res = ResReg.zero)
    (hfits : r.out.length ≤ Config.outCap) (hstatus : r.status ≤ 0x9 ∨ r.status = 0xF)
    (hfailed : r.FailedEmpty) (hcrc : r.crcOut ≠ 0x00 → r.out = []) :
    r.Consistent where
  fits := hfits
  statusCodes := hstatus
  failedEmpty := hfailed
  crcAlone := fun h => ⟨hcrc h, hres⟩
  resAbsentAddr := fun _ => by rw [hres]; exact ⟨rfl, BitVec.not_lt.mp (by decide)⟩
  resData := fun h => by rw [hres] at h; cases h
  resNoData := fun h => absurd hres h

theorem Results.failed_consistent (k : Status) : (Results.failed k).Consistent :=
  consistent_of_res_zero rfl (Nat.zero_le _) (statusCode_not_reserved k) (failed_failedEmpty k) fun _ => rfl

theorem Results.ofBytes_consistent {x : Except Status (List Byte)}
    (h : ∀ r, x = .ok r → r.length ≤ Config.outCap) : (Results.ofBytes x).Consistent := by
  cases x with
  | error k => exact failed_consistent k
  | ok r =>
    exact consistent_of_res_zero rfl (h r rfl) (statusCode_not_reserved .ok) (ofBytes_failedEmpty _) fun h => absurd rfl h

theorem crc8_consistent (c : Byte) : (⟨0x0, c, [], ResReg.zero⟩ : Results).Consistent :=
  Results.consistent_of_res_zero rfl (Nat.zero_le _) (statusCode_not_reserved .ok) (fun h => absurd rfl h) fun _ => rfl

/-! ### The packets DECODE delivers -/

theorem le_of_getLsbD_seven : ∀ b : Byte, ¬ b.getLsbD 7 = true → b ≤ 0x7F := by decide

/-- A command byte above 0x7F is delivered only after an address byte (R155). -/
theorem framePacket_cmd_le {body : List Byte} (h : (framePacket body).addr = none) :
    (framePacket body).cmd ≤ 0x7F := by
  by_cases hflag : (body.getD 0 0).getLsbD 7 = true
  · have hsome : (framePacket body).addr = some _ := if_pos hflag
    rw [h] at hsome
    cases hsome
  · have hsize : addrSize body = 0 := if_neg hflag
    rw [framePacket, hsize]
    exact le_of_getLsbD_seven _ hflag

/-- Data that is delivered as present has the length its length byte says, 1 to 255. -/
theorem length_framePacket_data {body d : List Byte}
    (hlen : body.length = addrSize body + 3 + (lengthByte body).toNat) (h : (framePacket body).data = some d) :
    1 ≤ d.length ∧ d.length ≤ 255 := by
  have hbyte := (lengthByte body).isLt
  by_cases hzero : (lengthByte body).toNat = 0
  · have hnone : (framePacket body).data = none := if_pos hzero
    rw [hnone] at h
    cases h
  · have hsome : (framePacket body).data = some _ := if_neg hzero
    obtain rfl := Option.some.inj (hsome.symm.trans h)
    rw [List.length_take, List.length_drop]
    omega

theorem Results.ofPacket_ok_consistent {p : Packet} (hcmd : p.addr = none → p.cmd ≤ 0x7F)
    (hdata : ∀ d, p.data = some d → 1 ≤ d.length ∧ d.length ≤ 255) : (Results.ofPacket (.ok p)).Consistent := by
  obtain ⟨addr, cmd, data⟩ := p
  exact {
    fits := by
      cases data with
      | none => exact Nat.zero_le _
      | some d => exact le_outCap ((hdata d rfl).2.trans (by decide))
    statusCodes := statusCode_not_reserved .ok
    failedEmpty := fun h => absurd rfl h
    crcAlone := fun h => absurd rfl h
    resAbsentAddr := fun h => by
      cases addr with
      | none => exact ⟨rfl, hcmd rfl⟩
      | some a => cases h
    resData := fun h => by
      cases data with
      | none => cases h
      | some d => exact hdata d rfl
    resNoData := fun _ h => by
      cases data with
      | none => rfl
      | some d => cases h }

theorem decode_consistent (raw : List Byte) : (Results.ofPacket (decodeFrame raw)).Consistent := by
  cases h : decodeFrame raw with
  | error k => exact Results.failed_consistent k
  | ok p =>
    obtain ⟨-, rest, body, -, -, hparse⟩ := decodeFrame_eq_ok_iff.mp h
    obtain ⟨hlen, -, rfl⟩ := parseFrame_eq_ok_iff.mp hparse
    exact Results.ofPacket_ok_consistent framePacket_cmd_le fun d hd => length_framePacket_data hlen hd

/-! ### The capacity of OUT (R28) -/

/-- OUT_CAP is what the longest input can be stuffed to. -/
theorem length_stuffBytes_le_outCap {bytes r : List Byte} (hin : bytes.length ≤ Config.inCap)
    (h : stuffBytes bytes = .ok r) : r.length ≤ Config.outCap := by
  cases bytes with
  | nil => cases h
  | cons b rest =>
    obtain ⟨-, hle⟩ := stuffedLengthCountsEscapes b rest r h
    unfold Config.outCap
    omega

theorem commandResults_consistent {s : State} (hs : Memory.wf s) (i : Instr) :
    (commandResults i s.inReg s.pkt).Consistent := by
  obtain ⟨hin, hdata, -⟩ := hs
  rw [storeBytes_inBuf] at hin
  rw [storeBytes_pktData] at hdata
  cases i with
  | crc8 => exact crc8_consistent _
  | stuff => exact Results.ofBytes_consistent fun r h => length_stuffBytes_le_outCap hin h
  | destuff =>
    refine Results.ofBytes_consistent fun r h => ?_
    obtain ⟨hle, -⟩ := destuffedLengthBounds _ r h
    exact hle.trans (hin.trans inCap_le_outCap)
  | encode =>
    have hd := (length_pktPacket_data_le s.pkt).trans hdata
    exact Results.ofBytes_consistent fun r h => le_outCap (length_encodePacket_le hd h)
  | decode => exact decode_consistent _

/-! ### Every action keeps the invariant -/

section Updates

variable {s : State} (hs : s.Inv)

include hs

theorem State.Inv.setPending (ls : List Line) : (s.setPending ls).Inv := { hs with }

theorem State.Inv.logRead (v : ReadValue) : (s.logRead v).Inv := { hs with }

/-- An unmarked state can take either mark. -/
theorem State.Inv.markRefused (hm : s.unmarked) (r : Refusal) : (s.markRefused r).Inv :=
  { hs with oneMark := .inl hm.1 }

theorem State.Inv.markFault (hm : s.unmarked) (f : Fault) : (s.markFault f).Inv :=
  { hs with oneMark := .inr hm.2 }

theorem State.Inv.setIn {bytes : List Byte} (h : bytes.length ≤ Config.inCap) : (s.setIn bytes).Inv :=
  { hs with stores := setIn_wf hs.stores h, unwrittenIn := fun hw => by cases hw }

/-- WRPKT writes 0 and nothing where the packet has no address and no data. -/
theorem State.Inv.setPkt {p : Packet} (h : (p.data.getD []).length ≤ Config.dataMax) : (s.setPkt (packetPkt p)).Inv :=
  { hs with
    stores := setPkt_wf hs.stores h
    unwrittenPkt := fun hw => by cases hw
    pktAbsentAddr := fun hp => by
      obtain ⟨_ | a, _, _⟩ := p
      · rfl
      · cases hp
    pktAbsentData := fun hp => by
      obtain ⟨_, _, _ | d⟩ := p
      · rfl
      · cases hp }

theorem State.Inv.setResults {r : Results} (hr : r.Consistent) : (s.setResults r).Inv :=
  { hs with
    stores := ⟨hs.stores.1, hs.stores.2.1, hr.fits⟩
    statusCodes := hr.statusCodes
    failedEmpty := hr.failedEmpty
    crcAlone := hr.crcAlone
    resAbsentAddr := hr.resAbsentAddr
    resData := hr.resData
    resNoData := hr.resNoData }

/-- After RESET the registers are those of the start of a run; the marks are kept. -/
theorem State.Inv.resetRegisters : s.resetRegisters.Inv :=
  { invariantHoldsAtReset with oneMark := hs.oneMark }

end Updates

section Actions

variable {s t : State}

theorem exec_keeps_inv (hs : s.Inv) (hm : s.unmarked) {i : Instr} (h : exec i s = .next t) : t.Inv := by
  obtain ⟨-, rfl⟩ | ⟨-, rfl⟩ := exec_cases h
  · exact hs.markFault hm _
  · exact hs.setResults (commandResults_consistent hs.stores i)

theorem command_keeps_inv (hs : s.Inv) (hm : s.unmarked) {w : Byte} (h : command w s = .next t) : t.Inv := by
  obtain ⟨-, h'⟩ | ⟨i, -, h'⟩ := command_cases w s <;> rw [h'] at h
  · obtain rfl := Host.Outcome.next.inj h
    rw [State.badOp_eq_setResults]
    exact hs.setResults (Results.failed_consistent .badOp)
  · exact exec_keeps_inv hs hm h

theorem perform_keeps_inv (hs : s.Inv) (hm : s.unmarked) {a : Action} (h : perform a s = .next t) : t.Inv := by
  obtain ⟨_, hfits, rfl⟩ | ⟨_, hfits, rfl⟩ | ⟨v, rfl⟩ | ⟨r, rfl⟩ | ⟨-, rfl⟩ | ⟨w, -, h⟩ := perform_cases h
  · exact hs.setIn hfits
  · exact hs.setPkt hfits
  · exact hs.logRead v
  · exact hs.markRefused hm r
  · exact hs.resetRegisters
  · exact command_keeps_inv hs hm h

end Actions

/-- Settles O53: a step is idle or performs one action. -/
theorem everyStepKeepsInvariant : Obligations.EveryStepKeepsInvariant := by
  intro s t hs h
  obtain ⟨hm, ⟨-, rfl⟩ | ⟨l, rest, -, h⟩⟩ := step_cases h
  · exact hs
  · exact perform_keeps_inv (hs.setPending ((expandLine s l).2 ++ rest)) hm h

end Sys2Proof.Machine
end
